-- ==== Sys2Proof/Word.lean ====
section
/-! DEFINITION. The two word types of the block: an array byte and a 32-bit register (00_scope R6 to R8). -/

namespace Sys2Proof

/-- One byte of an array; arithmetic on it is modulo 256 (00_scope R8). -/
abbrev Byte := BitVec 8

/-- A 32-bit register or port datum (00_scope R6, 20_memory R42). -/
abbrev Word := BitVec 32

end Sys2Proof
end

