-- ==== Sys2Proof/Syntax.lean ====
section
/-! DEFINITION. The seven commands (30_encoding R62), the fields of a command word (R61), the names of the fourteen
registers (10_state R18 to R31), host-port transactions (20_memory R42) and host scripts (30_encoding R71, R72). -/

namespace Sys2Proof

/-- The commands of 30_encoding R62, one constructor per row of the opcode table. A command has no operand field: its
operands are registers and arrays (R66). -/
inductive Instr where
  | select
  | schedule
  | crypt
  | cryptCont
  | scrypt
  | scryptCont
  | tcommit
deriving DecidableEq, Repr

/-- The fields of the one command format (30_encoding R61): OP in bits 7:0, CONT in bit 8, RSV in bits 31:9. -/
structure CommandFields where
  op   : BitVec 8
  cont : BitVec 1
  rsv  : BitVec 23
deriving DecidableEq, Repr

/-- The registers, in the order of their offsets 0x000, 0x004, ..., 0x034 (20_memory R44). -/
inductive Reg where
  | id
  | caps
  | cmd
  | status
  | errcode
  | inten
  | keyLen
  | ivLen
  | counter
  | nonce
  | dataLen
  | selIn
  | selPrev
  | selOut
deriving DecidableEq, Repr

/-- The two kinds of host-port transaction (20_memory R42); `n` is the size in bytes, any number, since the port
answers a bad size itself (60_exceptions R123). -/
inductive Transaction where
  | memRead (n : Nat)
  | memWrite (n : Nat) (v : Word)
deriving DecidableEq, Repr

/-- One line of an assembled host script (30_encoding R71): a transaction at a host address, or BNZ32 with its target
line. -/
inductive ScriptOp where
  | read (addr n : Nat)
  | write (addr n : Nat) (v : Word)
  | bnz (addr : Nat) (mask : Word) (target : Nat)
deriving DecidableEq, Repr

/-- An offset of a script line: a number, or a symbol of 30_encoding R71 (a register name or a window base) with its
optional `+n`; `plus` is 0 where there is none. -/
inductive ScriptOffset where
  | num (n : Nat)
  | reg (r : Reg) (plus : Nat)
  | keyw (plus : Nat)
  | ivw (plus : Nat)
  | tabw (plus : Nat)
  | dataw (plus : Nat)
deriving DecidableEq, Repr

/-- A line of a host script as 30_encoding R71 and R72 give it: labels, comments and blanks, the seven instructions,
the seven pseudo-instructions. -/
inductive ScriptLine where
  | label (name : String)
  | comment (text : String)
  | blank
  | w32 (off : ScriptOffset) (v : Word)
  | w16 (off : ScriptOffset) (v : Word)
  | w8 (off : ScriptOffset) (v : Word)
  | r32 (off : ScriptOffset)
  | r16 (off : ScriptOffset)
  | r8 (off : ScriptOffset)
  | bnz32 (off : ScriptOffset) (mask : Word) (name : String)
  | cmd (i : Instr)
  | wait
  | run (i : Instr)
  | ack
  | loadb (off : ScriptOffset) (bytes : List Byte)
  | loadw (off : ScriptOffset) (words : List Word)
  | dumpb (off : ScriptOffset) (count : Nat)
deriving DecidableEq, Repr

end Sys2Proof
end

