-- ==== Sys2Proof/WellFormed.lean ====
section
/-! DEFINITION. When the fields of a command word are those of a command (30_encoding R63, R64), and when a line of an
assembled host script is one that 30_encoding R71 can produce. -/

namespace Sys2Proof

/-- RSV must be 0 (30_encoding R61). -/
def CommandFields.reservedClear (f : CommandFields) : Bool := f.rsv == 0

/-- OP is one of 0x01 to 0x05 (30_encoding R63). -/
def CommandFields.opcodeKnown (f : CommandFields) : Bool := 1 ≤ f.op.toNat && f.op.toNat ≤ 5

/-- CONT = 1 only with OP = 0x03 and OP = 0x04 (30_encoding R61, R63). -/
def CommandFields.continuationAllowed (f : CommandFields) : Bool := f.cont == 0 || f.op == 0x03 || f.op == 0x04

/-- The fields of a legal command word (30_encoding R63, its second form). -/
def CommandFields.wf (f : CommandFields) : Bool := f.reservedClear && f.opcodeKnown && f.continuationAllowed

/-- The fields of each command's word (30_encoding R62). -/
def Instr.fields : Instr → CommandFields
  | .select     => ⟨0x01, 0, 0⟩
  | .schedule   => ⟨0x02, 0, 0⟩
  | .crypt      => ⟨0x03, 0, 0⟩
  | .cryptCont  => ⟨0x03, 1, 0⟩
  | .scrypt     => ⟨0x04, 0, 0⟩
  | .scryptCont => ⟨0x04, 1, 0⟩
  | .tcommit    => ⟨0x05, 0, 0⟩

/-- A command is well formed when its fields are. -/
def Instr.wf (i : Instr) : Bool := i.fields.wf

/-- The transaction sizes a script line can have (30_encoding R71). -/
def ScriptOp.sizeOk : ScriptOp → Bool
  | .read _ n    => n == 1 || n == 2 || n == 4
  | .write _ n _ => n == 1 || n == 2 || n == 4
  | .bnz _ _ _   => true

/-- A BNZ32 continues at a line of the script, or ends it (30_encoding R71). -/
def ScriptOp.targetOk (lines : Nat) : ScriptOp → Bool
  | .bnz _ _ t => t ≤ lines
  | _          => true

/-- A script whose lines all have a legal size and a target in the script. -/
def scriptWf (script : List ScriptOp) : Bool := script.all fun op => op.sizeOk && op.targetOk script.length

end Sys2Proof
end

