-- ==== Sys2Proof/Decode.lean ====
section
/-! DEFINITION. Reading a command word (30_encoding R61 to R65) and writing it. -/

namespace Sys2Proof

/-- Why a command word is reserved (30_encoding R64, R65). The block captures ILLEGAL_CMD for each of the first three;
data that is not one whole word never reaches the decoder (R65). -/
inductive DecodeRefusal where
  /-- RSV is not 0. -/
  | reservedBits
  /-- OP is 0x00, or 0x06 to 0xFF. -/
  | reservedOpcode
  /-- CONT = 1 with an OP other than 0x03 and 0x04. -/
  | continuationNotAllowed
  /-- Not exactly four bytes. -/
  | notOneWord
deriving DecidableEq, Repr

/-- What the decoder answers. -/
inductive Decoded where
  | command (i : Instr)
  | refused (r : DecodeRefusal)
deriving DecidableEq, Repr

/-- The fields of a word (30_encoding R61). -/
def fieldsOf (w : Word) : CommandFields := ⟨w.extractLsb' 0 8, w.extractLsb' 8 1, w.extractLsb' 9 23⟩

/-- Why a word outside 30_encoding R62 is reserved, in the order RSV, OP, CONT. -/
def refusalOf (w : Word) : DecodeRefusal :=
  let f := fieldsOf w
  if f.reservedClear then
    if f.opcodeKnown then .continuationNotAllowed else .reservedOpcode
  else .reservedBits

/-- The command decoder: the whole word is compared, with mask 0xFFFFFFFF (30_encoding R62). -/
def decode (w : Word) : Decoded :=
  if w = 0x00000001 then .command .select
  else if w = 0x00000002 then .command .schedule
  else if w = 0x00000003 then .command .crypt
  else if w = 0x00000103 then .command .cryptCont
  else if w = 0x00000004 then .command .scrypt
  else if w = 0x00000104 then .command .scryptCont
  else if w = 0x00000005 then .command .tcommit
  else .refused (refusalOf w)

/-- The command `w` stands for, if any. -/
def Decoded.instr? : Decoded → Option Instr
  | .command i => some i
  | .refused _ => none

/-- The byte lanes of a 32-bit value, lane 0 first (00_scope R7, 20_memory R47). -/
def wordBytes (w : Word) : List Byte :=
  [w.extractLsb' 0 8, w.extractLsb' 8 8, w.extractLsb' 16 8, w.extractLsb' 24 8]

/-- Decoding the bytes of a CMD write in lane order; a write narrower than 32 bits is no command (30_encoding R65). -/
def decodeBytes : List Byte → Decoded
  | [b0, b1, b2, b3] => decode (b3 ++ b2 ++ b1 ++ b0)
  | _ => .refused .notOneWord

/-- The word whose fields are `f` (30_encoding R61). -/
def CommandFields.word (f : CommandFields) : Word := f.rsv ++ f.cont ++ f.op

/-- The command word of a command (30_encoding R61, R62). -/
def encode (i : Instr) : Word := i.fields.word

/-- The command this decoder reads from an opcode-table row's bits; bits above `nbits` are 0. A command is one 32-bit
word (30_encoding R65), so a value that needs more bits is none. -/
def decodeTableWord (nbits w : Nat) : Option Instr :=
  let v := w % 2 ^ nbits
  if v < 2 ^ 32 then (decodeBytes (wordBytes (BitVec.ofNat 32 v))).instr? else none

end Sys2Proof
end

