-- ==== Sys2Proof/Config.lean ====
section
/-! DEFINITION. What the spec leaves to the implementation: the reset draws and the reference value of DATA_CAP
(00_scope R6, 10_state R32). -/

namespace Sys2Proof

/-- The block's byte arrays (10_state R13, R33 to R37). -/
inductive Arr where
  | key
  | iv
  | table
  | data
  | work
deriving DecidableEq, Repr

/-- The draw that byte `k` of array `a` holds after reset event number `epoch`, until it is written (10_state R32,
70_reset R136). A FREE VALUE: it has no body, so a claim holds only if it holds for every draw (log 2). -/
opaque Config.resetDraw (epoch : Nat) (a : Arr) (k : Nat) : Byte

/-- The reference value of the OPEN parameter DATA_CAP (00_scope R6). DESIGN CHOICE, unsafe: only `State.reset` uses
it; every other definition takes the capacity from the state (log 5). -/
def Config.referenceDataCap : Nat := 4096

/-- The size of the block's aperture in bytes (20_memory R41, R43). -/
def Config.apertureSize : Nat := 0x2000

end Sys2Proof
end

