-- ==== Sys2Proof/Machine/State.lean ====
section
/-! DEFINITION. The state of the xrc4 block (10_state R13), its configuration, and the host that drives it, as plain data,
and the state after reset (70_reset R136). -/

namespace Sys2Proof.Machine

/-- Why a step stops. The block itself never faults (70_reset R140): its errors are captured in STATUS (60_exceptions
R117). -/
inductive Fault where
  /-- Raised by the host's move when the script addresses something outside BASE to BASE+0x1FFF: such a transaction
  never reaches the block, and what the platform answers is outside the spec (20_memory R43). Safe: the machine stops
  where the platform goes on (log 11). -/
  | outsideAperture
deriving DecidableEq, Repr

/-- Why an instruction has no meaning. -/
inductive Refusal where
  /-- Kept for an arm of `exec` without a meaning; every command has one, so nothing raises it. Safe. -/
  | notModelled (mnemonic : String)
deriving DecidableEq, Repr

/-- The command sequencer (10_state R17): BUSY(op, cont) holds the command the two fields stand for (log 12). -/
inductive Seq where
  | idle
  | busy (i : Instr)
deriving DecidableEq, Repr

/-- The STATUS.CTX modes (10_state R21); value 3 is never produced (R38) and has no constructor (log 13). -/
inductive Ctx where
  | none
  | std
  | simple
deriving DecidableEq, Repr

/-- The error causes of 60_exceptions R119, codes 1 to 8. -/
inductive ErrCode where
  | illegalCmd
  | busyCmd
  | busyAccess
  | invalidKey
  | noTable
  | lenRange
  | noContext
  | notPerm
deriving DecidableEq, Repr

/-- A byte array: the (index, byte) pairs written since reset, indices strictly rising (`Memory.wf`). An unlisted index
has no value of its own here; a read of it gives the reset draw (10_state R32, log 3). -/
abbrev Memory := List Host.Cell

/-- The canonical form of a byte array: indices strictly rising. -/
abbrev Memory.wf (m : Memory) : Prop := m.Pairwise fun a b => a.1 < b.1

/-- Every listed index is below `size`. -/
abbrev Memory.within (m : Memory) (size : Nat) : Prop := ∀ c ∈ m, c.1 < size

/-- The response of the host port (20_memory R42). -/
inductive Resp where
  | okay
  | slverr
deriving DecidableEq, Repr

/-- A completed transaction's outcome: the response and, for a read, its data (20_memory R42). -/
structure Reply where
  resp : Resp
  data : Word
deriving DecidableEq, Repr

/-- The state of the block: the list of 10_state R13, these and nothing else, each item with its own rule. ID and CMD hold
nothing (R18, R20), and irq is a function of the rest (60_exceptions R126). -/
structure BlockState where
  /-- The command sequencer; STATUS.BUSY reads 1 exactly when it is busy (R17). -/
  seq     : Seq
  /-- STATUS.DONE (R21). -/
  done    : Bool
  /-- STATUS.ERR (R21). -/
  err     : Bool
  /-- STATUS.TV, table valid (R21, R35). -/
  tv      : Bool
  /-- STATUS.CTX (R21, R38). -/
  ctx     : Ctx
  /-- ERRCODE[7:0] (R22). -/
  errcode : Byte
  /-- INTEN.DONE_IE (R23). -/
  doneIe  : Bool
  /-- INTEN.ERR_IE (R23). -/
  errIe   : Bool
  /-- KEY_LEN (R24). -/
  keyLen  : Word
  /-- IV_LEN (R25). -/
  ivLen   : Word
  /-- COUNTER (R26). -/
  counter : Word
  /-- NONCE (R27). -/
  nonce   : Word
  /-- DATA_LEN (R28). -/
  dataLen : Word
  /-- SEL_IN[7:0] (R29). -/
  selIn   : Byte
  /-- SEL_PREV (R30). -/
  selPrev : Word
  /-- SEL_OUT[7:0] (R31). -/
  selOut  : Byte
  /-- KEY[0..255] (R33). -/
  key     : Memory
  /-- IV[0..255] (R34). -/
  iv      : Memory
  /-- TABLE[0..255] (R35). -/
  table   : Memory
  /-- DATA[0..DATA_CAP-1] (R36). -/
  data    : Memory
  /-- WORK[0..255] (R37). -/
  work    : Memory
  /-- Context register CI (R38). -/
  ci      : Byte
  /-- Context register CJ (R38). -/
  cj      : Byte
  /-- Context register CSA (R38). -/
  csa     : Byte
  /-- Context register CSB (R38). -/
  csb     : Byte
deriving DecidableEq, Repr

/-- The configuration, which is not state (10_state R13): the parameters of 00_scope R6, arguments of the model that nothing
writes. LATENCY is the order of moves, `State.schedule` (log 7). -/
structure Parameters where
  /-- DATA_CAP, which CAPS reads (10_state R19; log 5). -/
  dataCap : Nat
  /-- BASE (20_memory R43; log 6). -/
  base    : Nat
deriving DecidableEq, Repr

/-- A block in its platform: its state, the configuration it runs under, and the model's own mark of the draws its unwritten
bytes hold. The last two ride beside the state because a step has one argument. -/
structure Block extends BlockState, Parameters where
  /-- Which reset event's draws the unwritten bytes hold (10_state R32, 70_reset R136); the model's own (log 2). -/
  epoch   : Nat
deriving DecidableEq, Repr

/-- The host: a bus master that runs a script (00_scope R11, 30_encoding R71). The model's own (logs 1 and 10). -/
structure Master where
  /-- The assembled script. -/
  script : List ScriptOp
  /-- The line the script executes next. -/
  line   : Nat
  /-- The reply to the last transaction. -/
  last   : Option Reply
  /-- The replies the script's reads recorded, in order (R71). -/
  record : List Reply
deriving DecidableEq, Repr

/-- Which agent moves next (00_scope R11, 70_reset R141; log 7). -/
inductive Move where
  /-- The host's next transaction takes effect. -/
  | host
  /-- The host's next transaction takes effect and the engine step, if enabled then, comes right after it (log 8). -/
  | prompt
  /-- The engine step, if enabled. -/
  | engine
  /-- The platform asserts `rst` (R136). -/
  | reset
deriving DecidableEq, Repr

/-- The machine: the block in its platform, the host, and the order of moves to come. -/
structure State where
  block    : Block
  master   : Master
  schedule : List Move
deriving DecidableEq, Repr

/-- The state of the block right after a reset event (70_reset R136). Every array is unwritten, so every byte reads as its
draw. CI, CJ, CSA and CSB are 0 by DESIGN CHOICE, unsafe (log 4): the spec gives no value, and no rule can observe one. -/
def BlockState.reset : BlockState where
  seq     := .idle
  done    := false
  err     := false
  tv      := false
  ctx     := .none
  errcode := 0
  doneIe  := false
  errIe   := false
  keyLen  := 0
  ivLen   := 0
  counter := 0
  nonce   := 0
  dataLen := 0
  selIn   := 0
  selPrev := 0
  selOut  := 0
  key     := []
  iv      := []
  table   := []
  data    := []
  work    := []
  ci      := 0
  cj      := 0
  csa     := 0
  csb     := 0

/-- The block under parameters `p` right after reset event number `epoch` (70_reset R136). -/
def Block.reset (p : Parameters) (epoch : Nat) : Block :=
  { BlockState.reset, p with epoch := epoch }

/-- A host with no script. -/
def Master.empty : Master where
  script := []
  line   := 0
  last   := none
  record := []

/-- The machine right after reset (70_reset R136): the block of the reference capacity (log 5) at base 0 (log 6), no
script loaded (log 1) and no move scheduled (log 7). -/
def State.reset : State where
  block    := Block.reset { dataCap := Config.referenceDataCap, base := 0 } 0
  master   := Master.empty
  schedule := []

end Sys2Proof.Machine
end

