-- ==== Sys2Proof/Machine/Ops.lean ====
section
/-! DEFINITION. The operations every command and every transaction is made of: bounded loops and byte arrays (00_scope
R9), error capture and its clearing (60_exceptions R118, R125), command issue (R120) and the engine step's frame
(70_reset R140). -/

namespace Sys2Proof.Machine

/-- `for n in 0 .. N-1` (00_scope R9): the body for n = 0, 1, ..., N-1 in order; none when N = 0. -/
def forRange {α : Type} : (count : Nat) → (body : Nat → α → α) → α → α
  | 0, _, a => a
  | n + 1, body, a => body n (forRange n body a)

/-- The byte written at index `k` since reset, if any. -/
def Memory.get : Memory → Nat → Option Byte
  | [], _ => none
  | (i, v) :: m, k => if k = i then some v else Memory.get m k

/-- Write byte `v` at index `k`, keeping the indices strictly rising. -/
def Memory.put : Memory → Nat → Byte → Memory
  | [], k, v => [(k, v)]
  | (i, x) :: m, k, v =>
    if k < i then (k, v) :: (i, x) :: m
    else if k = i then (k, v) :: m
    else (i, x) :: Memory.put m k v

/-- `A[k]` (00_scope R9): the byte written last, or the reset draw `draw k` where none was written (10_state R32). -/
def Memory.read (m : Memory) (draw : Nat → Byte) (k : Nat) : Byte := (m.get k).getD (draw k)

/-- `swap(A, x, y)` (00_scope R9). -/
def Memory.swap (m : Memory) (draw : Nat → Byte) (x y : Nat) : Memory :=
  let t := m.read draw x
  (m.put x (m.read draw y)).put y t

/-- Every value 0..255 occurs exactly once in bytes 0..255 of the array (44_table_management R113). -/
def Memory.isPermutation (m : Memory) (draw : Nat → Byte) : Bool :=
  let bytes := (List.range 256).map (m.read draw)
  (List.range 256).all fun v => bytes.count (BitVec.ofNat 8 v) == 1

/-- The array `a` of the block. -/
def Block.arr (b : Block) : Arr → Memory
  | .key   => b.key
  | .iv    => b.iv
  | .table => b.table
  | .data  => b.data
  | .work  => b.work

/-- The block with array `a` replaced. -/
def Block.setArr (b : Block) (a : Arr) (m : Memory) : Block :=
  match a with
  | .key   => { b with key := m }
  | .iv    => { b with iv := m }
  | .table => { b with table := m }
  | .data  => { b with data := m }
  | .work  => { b with work := m }

/-- The number of bytes of array `a` (10_state R33 to R37). -/
def Block.arrSize (b : Block) : Arr → Nat
  | .data => b.dataCap
  | _     => 256

/-- The draws of array `a` since the last reset (10_state R32). -/
def Block.draw (b : Block) (a : Arr) : Nat → Byte := Config.resetDraw b.epoch a

/-- Byte `k` of array `a` (00_scope R9). -/
def Block.byte (b : Block) (a : Arr) (k : Nat) : Byte := (b.arr a).read (b.draw a) k

/-- `A[k] <- v` (00_scope R9). -/
def Block.setByte (b : Block) (a : Arr) (k : Nat) (v : Byte) : Block := b.setArr a ((b.arr a).put k v)

/-- STATUS.BUSY (10_state R17). -/
def Block.isBusy (b : Block) : Bool :=
  match b.seq with
  | .idle   => false
  | .busy _ => true

/-- The code ERRCODE holds for a cause (60_exceptions R119). -/
def ErrCode.code : ErrCode → Byte
  | .illegalCmd => 1
  | .busyCmd    => 2
  | .busyAccess => 3
  | .invalidKey => 4
  | .noTable    => 5
  | .lenRange   => 6
  | .noContext  => 7
  | .notPerm    => 8

/-- `capture(code)` (60_exceptions R118): ERR is set, and the first code since ERR was clear is kept. This is how the
block takes an error; it has no trap (R117). -/
def Block.capture (b : Block) (c : ErrCode) : Block :=
  { b with errcode := if b.err then b.errcode else c.code, err := true }

/-- A write of `v` to STATUS (10_state R21, 60_exceptions R125): bit 1 clears DONE, bit 2 clears ERR and ERRCODE; every
other bit is ignored. This is the return from a captured error. -/
def Block.writeStatus (b : Block) (v : Word) : Block :=
  { b with
    done    := b.done && !v.getLsbD 1
    err     := b.err && !v.getLsbD 2
    errcode := if v.getLsbD 2 then 0 else b.errcode }

/-- The length check of the four cipher commands (60_exceptions R120, step 7). -/
def Block.lengthError (b : Block) : Option ErrCode :=
  if b.dataLen.toNat > b.dataCap then some .lenRange else none

/-- The checks of a cipher command that starts a keystream (60_exceptions R120, steps 6 and 7). -/
def Block.freshError (b : Block) : Option ErrCode := if b.tv then b.lengthError else some .noTable

/-- The checks of a `.CONT` command that needs context `c` (60_exceptions R120, steps 5 and 7). -/
def Block.contError (b : Block) (c : Ctx) : Option ErrCode := if b.ctx = c then b.lengthError else some .noContext

/-- The first failing check of steps 4 to 7 of 60_exceptions R120 for command `i`. -/
def Block.issueError (b : Block) : Instr → Option ErrCode
  | .select     => none
  | .schedule   => if b.keyLen = 0 then some .invalidKey else none
  | .crypt      => b.freshError
  | .cryptCont  => b.contError .std
  | .scrypt     => b.freshError
  | .scryptCont => b.contError .simple
  | .tcommit    => none

/-- Steps 4 to 8 of 60_exceptions R120: reject command `i` with its error, or accept it. -/
def Block.accept (b : Block) (i : Instr) : Block :=
  match b.issueError i with
  | some c => b.capture c
  | none   => { b with seq := .busy i }

/-- Step 2 of 60_exceptions R120: a command word presented while idle clears DONE. -/
def Block.clearDone (b : Block) : Block := { b with done := false }

/-- `issue(w)` (60_exceptions R120): word `w` is presented on CMD. -/
def Block.issue (b : Block) (w : Word) : Block :=
  match b.seq with
  | .busy _ => b.capture .busyCmd
  | .idle =>
    match decode w with
    | .refused _ => b.clearDone.capture .illegalCmd
    | .command i => b.clearDone.accept i

/-- The end of the engine step (70_reset R140): SEQ <- IDLE and DONE <- 1. -/
def Block.complete (b : Block) : Block := { b with seq := .idle, done := true }

/-- Command `i`, whose pseudocode is `perform`, run on the block. From IDLE the command is presented (60_exceptions R120
from step 2) and, once accepted, performed by the engine step; from BUSY it is the pending command, and this is its engine
step (70_reset R140). See log 9. -/
def Block.runCommand (b : Block) (i : Instr) (perform : Block → Block) : Block :=
  match b.seq with
  | .busy _ => (perform b).complete
  | .idle =>
    let presented := b.clearDone.accept i
    if presented.isBusy then (perform presented).complete else presented

/-- `Block.runCommand` as a step of the machine: nothing but the block changes. -/
def runCommand (i : Instr) (perform : Block → Block) (s : State) : Host.Outcome State Fault Refusal :=
  .next { s with block := s.block.runCommand i perform }

end Sys2Proof.Machine
end

