-- ==== Sys2Proof/Machine/Operands.lean ====
section
/-! DEFINITION. The operands of the commands (30_encoding R66 to R70): byte lanes of COUNTER and NONCE, the key bytes, and
the IV bytes with the fallback (42_standard_cipher R92). -/

namespace Sys2Proof.Machine

/-- `byte_k(x)` (00_scope R7). -/
def byteLane (k : Nat) (x : Word) : Byte := x.extractLsb' (8 * k) 8

/-- The key length L (10_state R24, 30_encoding R70). -/
def Block.keyLength (b : Block) : Nat := b.keyLen.toNat

/-- `KEY[k mod L]` (41_key_schedule R83, R84). -/
def Block.keyByte (b : Block) (k : Nat) : Byte := b.byte .key (k % b.keyLength)

/-- `ivlen` (42_standard_cipher R92). -/
def Block.ivLength (b : Block) : Nat := if b.ivLen = 0 then 256 else b.ivLen.toNat

/-- `ivb(k)` (42_standard_cipher R92, R102): with IV_LEN = 0 the IV is the working array as it is at this moment. -/
def Block.ivByte (b : Block) (work : Memory) (k : Nat) : Byte :=
  if b.ivLen = 0 then work.read (b.draw .work) k else b.byte .iv k

/-- The byte operand of SCRYPT's stride_a (30_encoding R69). -/
def Block.nonceSeedA (b : Block) : Byte := byteLane 2 b.nonce ^^^ byteLane 1 b.nonce

/-- The byte operand of SCRYPT's stride_b (30_encoding R69). -/
def Block.nonceSeedB (b : Block) : Byte := byteLane 3 b.nonce ^^^ byteLane 0 b.nonce

/-- The number of DATA bytes a cipher command transforms (10_state R28). -/
def Block.dataLength (b : Block) : Nat := b.dataLen.toNat

end Sys2Proof.Machine
end

