-- ==== Sys2Proof/Machine/Selector.lean ====
section
/-! DEFINITION. The CoprimeSelector and the SELECT command (40_selector R73, R76). -/

namespace Sys2Proof.Machine

/-- The candidate of `CS` (40_selector R73): an odd byte as it is, an even byte plus 57 (a 9-bit value), XOR 96,
modulo 256. -/
def selectorCandidate (b : Byte) : Byte :=
  BitVec.ofNat 8 ((if b.getLsbD 0 then b.toNat else b.toNat + 57) ^^^ 96)

/-- `CS(b, p)` (40_selector R73): the candidate, plus 2 where its zero extension equals `p`. -/
def cs (b : Byte) (p : Word) : Byte :=
  let cand := selectorCandidate b
  if cand.setWidth 32 = p then cand + 2 else cand

/-- SELECT's engine step (40_selector R76). -/
def performSelect (b : Block) : Block := { b with selOut := cs b.selIn b.selPrev }

/-- SELECT (40_selector R76). -/
def execSelect (s : State) : Host.Outcome State Fault Refusal := runCommand .select performSelect s

end Sys2Proof.Machine
end

