-- ==== Sys2Proof/Machine/KeySchedule.lean ====
section
/-! DEFINITION. The KeyScheduler and the SCHEDULE command (41_key_schedule R81 to R90). -/

namespace Sys2Proof.Machine

/-- Phase A's loop state: the position and TABLE (41_key_schedule R82). -/
structure Fill where
  pos   : Byte
  table : Memory
deriving DecidableEq, Repr

/-- One iteration of phase A (41_key_schedule R82): advance, then `TABLE[pos] <- n`. -/
def fillStep (stride : Byte) (n : Nat) (w : Fill) : Fill :=
  let pos := w.pos + stride
  ⟨pos, w.table.put pos.toNat (BitVec.ofNat 8 n)⟩

/-- Phase A, the stride-seeded fill (41_key_schedule R82). -/
def fillTable (stride : Byte) (table : Memory) : Memory := (forRange 256 (fillStep stride) ⟨0, table⟩).table

/-- Phase B's loop state: the position, the accumulator and TABLE (41_key_schedule R84). -/
structure Mix where
  pos   : Byte
  j     : Byte
  table : Memory
deriving DecidableEq, Repr

/-- One iteration of phase B (41_key_schedule R84); `keyByte k` is `KEY[k mod L]`. -/
def mixStep (stride : Byte) (keyByte : Nat → Byte) (draw : Nat → Byte) (w : Mix) : Mix :=
  let pos := w.pos + stride
  let j := w.j + keyByte pos.toNat + w.table.read draw pos.toNat
  ⟨pos, j, w.table.swap draw pos.toNat j.toNat⟩

/-- Phase B, the 768 key-mixing swaps (41_key_schedule R84). -/
def mixTable (stride : Byte) (keyByte : Nat → Byte) (draw : Nat → Byte) (table : Memory) : Memory :=
  (forRange 768 (fun _ => mixStep stride keyByte draw) ⟨0, 0, table⟩).table

/-- stride1 (41_key_schedule R82). -/
def Block.stride1 (b : Block) : Byte := cs (b.byte .key 0) 0

/-- stride2 (41_key_schedule R83). -/
def Block.stride2 (b : Block) : Byte := cs (b.keyByte 1) (b.stride1.setWidth 32)

/-- The TABLE that SCHEDULE computes (41_key_schedule R81). -/
def Block.scheduledTable (b : Block) : Memory :=
  mixTable b.stride2 b.keyByte (b.draw .table) (fillTable b.stride1 b.table)

/-- SCHEDULE's engine step (41_key_schedule R81, R86). -/
def performSchedule (b : Block) : Block := { b with table := b.scheduledTable, tv := true, ctx := .none }

/-- SCHEDULE (41_key_schedule R81). -/
def execSchedule (s : State) : Host.Outcome State Fault Refusal := runCommand .schedule performSchedule s

end Sys2Proof.Machine
end

