-- ==== Sys2Proof/Machine/Keystream.lean ====
section
/-! DEFINITION. The keystream loop that both ciphers run, and its application to DATA (42_standard_cipher R94,
43_simple_cipher R105). -/

namespace Sys2Proof.Machine

/-- The generator's loop state: the indices i and j and the array it swaps (WORK in CRYPT, TABLE in SCRYPT). -/
structure Prga where
  i   : Byte
  j   : Byte
  arr : Memory
deriving DecidableEq, Repr

/-- Steps 1 to 3 of one iteration: advance i by `stride`, `j <- (j + A[i] + addend) mod 256`, swap. CRYPT's addend is 0
(42_standard_cipher R94), SCRYPT's is stride_b (43_simple_cipher R105). -/
def prgaStep (stride addend : Byte) (draw : Nat → Byte) (p : Prga) : Prga :=
  let i := p.i + stride
  let j := p.j + p.arr.read draw i.toNat + addend
  ⟨i, j, p.arr.swap draw i.toNat j.toNat⟩

/-- Step 4: the keystream byte `A[(A[i] + A[j]) mod 256]`, read after the swap. -/
def keystreamByte (draw : Nat → Byte) (p : Prga) : Byte :=
  p.arr.read draw (p.arr.read draw p.i.toNat + p.arr.read draw p.j.toNat).toNat

/-- The generator and the DATA buffer. -/
structure Stream where
  gen  : Prga
  data : Memory
deriving DecidableEq, Repr

/-- One iteration of the keystream loop, step 5 included: `DATA[n] <- DATA[n] XOR k_n`. -/
def applyStep (stride addend : Byte) (draw dataDraw : Nat → Byte) (n : Nat) (s : Stream) : Stream :=
  let g := prgaStep stride addend draw s.gen
  ⟨g, s.data.put n (s.data.read dataDraw n ^^^ keystreamByte draw g)⟩

/-- `for n in 0 .. len-1`, the keystream loop. -/
def applyKeystream (stride addend : Byte) (draw dataDraw : Nat → Byte) (len : Nat) (s : Stream) : Stream :=
  forRange len (applyStep stride addend draw dataDraw) s

end Sys2Proof.Machine
end

