-- ==== Sys2Proof/Machine/SimpleCipher.lean ====
section
/-! DEFINITION. The SimpleStreamCipher: SCRYPT and SCRYPT.CONT (43_simple_cipher R103 to R110). -/

namespace Sys2Proof.Machine

/-- stride_a of SCRYPT (43_simple_cipher R104). -/
def Block.scryptStrideA (b : Block) : Byte := cs b.nonceSeedA 0

/-- stride_b of SCRYPT (43_simple_cipher R104). -/
def Block.scryptStrideB (b : Block) : Byte := cs b.nonceSeedB (b.scryptStrideA.setWidth 32)

/-- The generation loop of SCRYPT, on TABLE in place (43_simple_cipher R103, R105). -/
def Block.scryptStream (b : Block) : Stream :=
  applyKeystream b.scryptStrideA b.scryptStrideB (b.draw .table) (b.draw .data) b.dataLength
    ⟨⟨byteLane 0 b.nonce, byteLane 1 b.nonce, b.table⟩, b.data⟩

/-- SCRYPT's engine step (43_simple_cipher R103, R106). -/
def performScrypt (b : Block) : Block :=
  let s := b.scryptStream
  { b with
    table := s.gen.arr, data := s.data, ci := s.gen.i, cj := s.gen.j
    csa := b.scryptStrideA, csb := b.scryptStrideB, ctx := .simple }

/-- The loop of SCRYPT.CONT, from the saved context (43_simple_cipher R107). -/
def Block.scryptContStream (b : Block) : Stream :=
  applyKeystream b.csa b.csb (b.draw .table) (b.draw .data) b.dataLength ⟨⟨b.ci, b.cj, b.table⟩, b.data⟩

/-- SCRYPT.CONT's engine step (43_simple_cipher R107). -/
def performScryptCont (b : Block) : Block :=
  let s := b.scryptContStream
  { b with table := s.gen.arr, data := s.data, ci := s.gen.i, cj := s.gen.j }

/-- SCRYPT (43_simple_cipher R103). -/
def execScrypt (s : State) : Host.Outcome State Fault Refusal := runCommand .scrypt performScrypt s

/-- SCRYPT.CONT (43_simple_cipher R107). -/
def execScryptCont (s : State) : Host.Outcome State Fault Refusal := runCommand .scryptCont performScryptCont s

end Sys2Proof.Machine
end

