-- ==== Sys2Proof/Machine/StandardCipher.lean ====
section
/-! DEFINITION. The StandardStreamCipher: CRYPT and CRYPT.CONT (42_standard_cipher R91 to R102). -/

namespace Sys2Proof.Machine

/-- Step 1, the local copy: `WORK[k] <- TABLE[k]` for k in 0 .. 255 (42_standard_cipher R91). -/
def Block.workCopy (b : Block) : Memory := forRange 256 (fun k w => w.put k (b.byte .table k)) b.work

/-- One iteration of the pre-mixing (42_standard_cipher R93): both reads come before the swap, and `ivb` is indexed by the
old j. `ivByte w k` is `ivb(k)` while WORK holds `w` (R102). -/
def premixStep (stride : Byte) (ivByte : Memory → Nat → Byte) (ivLength : Nat) (draw : Nat → Byte) (p : Prga) : Prga :=
  let i := p.i + stride
  let j := p.j + ivByte p.arr (p.j.toNat % ivLength) + p.arr.read draw i.toNat
  ⟨i, j, p.arr.swap draw i.toNat j.toNat⟩

/-- stride_a of CRYPT, with WORK as Step 1 leaves it (42_standard_cipher R93). -/
def Block.cryptStrideA (b : Block) : Byte := cs (b.ivByte b.workCopy 0) 0

/-- stride_b of CRYPT (42_standard_cipher R94). -/
def Block.cryptStrideB (b : Block) : Byte := cs (byteLane 0 b.counter) (b.cryptStrideA.setWidth 32)

/-- Step 3, the 256 pre-mixing iterations (42_standard_cipher R93). -/
def Block.premix (b : Block) : Prga :=
  forRange 256 (fun _ => premixStep b.cryptStrideA b.ivByte b.ivLength (b.draw .work))
    ⟨byteLane 2 b.counter, byteLane 3 b.counter, b.workCopy⟩

/-- Step 4, keystream generation and application (42_standard_cipher R94): i and j restart from COUNTER. -/
def Block.cryptStream (b : Block) : Stream :=
  applyKeystream b.cryptStrideB 0 (b.draw .work) (b.draw .data) b.dataLength
    ⟨⟨byteLane 0 b.counter, byteLane 1 b.counter, b.premix.arr⟩, b.data⟩

/-- CRYPT's engine step (42_standard_cipher R91, R95). -/
def performCrypt (b : Block) : Block :=
  let s := b.cryptStream
  { b with
    work := s.gen.arr, data := s.data, ci := s.gen.i, cj := s.gen.j
    csa := b.cryptStrideA, csb := b.cryptStrideB, ctx := .std }

/-- The loop of CRYPT.CONT, from the saved context (42_standard_cipher R96). -/
def Block.cryptContStream (b : Block) : Stream :=
  applyKeystream b.csb 0 (b.draw .work) (b.draw .data) b.dataLength ⟨⟨b.ci, b.cj, b.work⟩, b.data⟩

/-- CRYPT.CONT's engine step (42_standard_cipher R96). -/
def performCryptCont (b : Block) : Block :=
  let s := b.cryptContStream
  { b with work := s.gen.arr, data := s.data, ci := s.gen.i, cj := s.gen.j }

/-- CRYPT (42_standard_cipher R91). -/
def execCrypt (s : State) : Host.Outcome State Fault Refusal := runCommand .crypt performCrypt s

/-- CRYPT.CONT (42_standard_cipher R96). -/
def execCryptCont (s : State) : Host.Outcome State Fault Refusal := runCommand .cryptCont performCryptCont s

end Sys2Proof.Machine
end

