-- ==== Sys2Proof/Machine/TableManagement.lean ====
section
/-! DEFINITION. TCOMMIT (44_table_management R113, 60_exceptions R122). -/

namespace Sys2Proof.Machine

/-- TABLE holds each of 0..255 exactly once (44_table_management R113). -/
def Block.tableIsPermutation (b : Block) : Bool := b.table.isPermutation (b.draw .table)

/-- TCOMMIT's engine step (44_table_management R113): TV <- 1 for a permutation, else NOT_PERM is captured and TV stays. -/
def performTcommit (b : Block) : Block :=
  if b.tableIsPermutation then { b with tv := true } else b.capture .notPerm

/-- TCOMMIT (44_table_management R113). -/
def execTcommit (s : State) : Host.Outcome State Fault Refusal := runCommand .tcommit performTcommit s

end Sys2Proof.Machine
end

