-- ==== Sys2Proof/Machine/Dispatch.lean ====
section
/-! DEFINITION. The meaning of each command (70_reset R140), one arm a row of the opcode table. -/

namespace Sys2Proof.Machine

def exec (i : Instr) (s : State) : Host.Outcome State Fault Refusal :=
  match i with
  | .select => Sys2Proof.Machine.execSelect s
  | .schedule => Sys2Proof.Machine.execSchedule s
  | .crypt => Sys2Proof.Machine.execCrypt s
  | .cryptCont => Sys2Proof.Machine.execCryptCont s
  | .scrypt => Sys2Proof.Machine.execScrypt s
  | .scryptCont => Sys2Proof.Machine.execScryptCont s
  | .tcommit => Sys2Proof.Machine.execTcommit s

end Sys2Proof.Machine
end

