-- ==== Sys2Proof/Machine/Flags.lean ====
section
/-! DEFINITION. The status bits as words, and the interrupt line (10_state R21, R23, R40; 60_exceptions R126). The block
has no arithmetic flags. -/

namespace Sys2Proof.Machine

/-- The two-bit code of a context mode (10_state R21). -/
def Ctx.code : Ctx → BitVec 2
  | .none   => 0
  | .std    => 1
  | .simple => 2

/-- The word a read of STATUS returns (10_state R21). -/
def Block.statusWord (b : Block) : Word :=
  (b.ctx.code ++ BitVec.ofBool b.tv ++ BitVec.ofBool b.err ++ BitVec.ofBool b.done ++ BitVec.ofBool b.isBusy).setWidth 32

/-- The word a read of INTEN returns (10_state R23). -/
def Block.intenWord (b : Block) : Word := (BitVec.ofBool b.errIe ++ BitVec.ofBool b.doneIe).setWidth 32

/-- A write of `v` to INTEN (10_state R23). -/
def Block.writeInten (b : Block) (v : Word) : Block := { b with doneIe := v.getLsbD 0, errIe := v.getLsbD 1 }

/-- The level of the interrupt output (60_exceptions R126). -/
def Block.irq (b : Block) : Bool := (b.done && b.doneIe) || (b.err && b.errIe)

end Sys2Proof.Machine
end

