-- ==== Sys2Proof/Machine/Port.lean ====
section
/-! DEFINITION. The host port (20_memory R41 to R60): address map, access rules, byte order, the registers' reads and
writes, the windows, and what changes while BUSY = 1. -/

namespace Sys2Proof.Machine

/-- The offset of a register (20_memory R44). -/
def regOffset : Reg → Nat
  | .id      => 0x000
  | .caps    => 0x004
  | .cmd     => 0x008
  | .status  => 0x00C
  | .errcode => 0x010
  | .inten   => 0x014
  | .keyLen  => 0x018
  | .ivLen   => 0x01C
  | .counter => 0x020
  | .nonce   => 0x024
  | .dataLen => 0x028
  | .selIn   => 0x02C
  | .selPrev => 0x030
  | .selOut  => 0x034

/-- Every register, in the order of the offsets. -/
def allRegs : List Reg :=
  [.id, .caps, .cmd, .status, .errcode, .inten, .keyLen, .ivLen, .counter, .nonce, .dataLen, .selIn, .selPrev, .selOut]

/-- What stands at a block offset (20_memory R44). -/
inductive Region where
  | register (r : Reg)
  | window (a : Arr) (k : Nat)
  | reserved
deriving DecidableEq, Repr

/-- The offset of the first byte of an array's window (20_memory R44); WORK has none (10_state R37). -/
def windowBase : Arr → Option Nat
  | .key   => some 0x100
  | .iv    => some 0x200
  | .table => some 0x300
  | .data  => some 0x1000
  | .work  => none

/-- The region of a block offset, with capacity `cap` (20_memory R44). -/
def regionAt (cap off : Nat) : Region :=
  if off < 0x100 then
    match allRegs.find? fun r => regOffset r == off with
    | some r => .register r
    | none   => .reserved
  else if off < 0x200 then .window .key (off - 0x100)
  else if off < 0x300 then .window .iv (off - 0x200)
  else if off < 0x400 then .window .table (off - 0x300)
  else if off < 0x1000 then .reserved
  else if off < 0x1000 + cap then .window .data (off - 0x1000)
  else .reserved

/-- The size and alignment rules (20_memory R45, R46; 60_exceptions R123). -/
def accessOk (off n : Nat) : Bool :=
  if off < 0x100 then n == 4 && off % 4 == 0
  else (n == 1 || n == 2 || n == 4) && off % n == 0

/-- An OKAY reply with data `v`. -/
def Reply.okay (v : Word) : Reply := ⟨.okay, v⟩

/-- The bus error: SLVERR, with read data 0 (20_memory R42). -/
def Reply.busError : Reply := ⟨.slverr, 0⟩

/-- The value a register read returns (10_state R18 to R31). CMD reads 0. -/
def Block.readReg (b : Block) : Reg → Word
  | .id      => 0x58524334
  | .caps    => BitVec.ofNat 32 b.dataCap
  | .cmd     => 0
  | .status  => b.statusWord
  | .errcode => b.errcode.setWidth 32
  | .inten   => b.intenWord
  | .keyLen  => b.keyLen
  | .ivLen   => b.ivLen
  | .counter => b.counter
  | .nonce   => b.nonce
  | .dataLen => b.dataLen
  | .selIn   => b.selIn.setWidth 32
  | .selPrev => b.selPrev
  | .selOut  => b.selOut.setWidth 32

/-- A write to a RW configuration register: the block `b'` that stores it, or, while BUSY = 1, dropped with BUSY_ACCESS
(20_memory R51). -/
def Block.configure (b b' : Block) : Block := if b.isBusy then b.capture .busyAccess else b'

/-- A register write (10_state R18 to R31, 20_memory R50, R51). Read-only registers ignore it. -/
def Block.writeReg (b : Block) (v : Word) : Reg → Block
  | .id      => b
  | .caps    => b
  | .cmd     => b.issue v
  | .status  => b.writeStatus v
  | .errcode => b
  | .inten   => b.writeInten v
  | .keyLen  => b.configure { b with keyLen := v }
  | .ivLen   => b.configure { b with ivLen := v }
  | .counter => b.configure { b with counter := v }
  | .nonce   => b.configure { b with nonce := v }
  | .dataLen => b.configure { b with dataLen := v }
  | .selIn   => b.configure { b with selIn := v.setWidth 8 }
  | .selPrev => b.configure { b with selPrev := v }
  | .selOut  => b

/-- The data of a window read of `n` bytes from index `k` (20_memory R47): byte `k + m` in lane `m`, the other lanes 0. A
lane at or beyond the array's size is reserved and reads 0 (R48; log 18). -/
def Block.readLanes (b : Block) (a : Arr) (k n : Nat) : Word :=
  forRange n (fun m acc =>
    if k + m < b.arrSize a then acc ||| ((b.byte a (k + m)).setWidth 32 <<< (8 * m)) else acc) 0

/-- The block after a window write of `n` bytes at index `k` (20_memory R47): lane `m` goes to byte `k + m`. A lane at or
beyond the array's size is reserved and ignored (R48; log 18). -/
def Block.writeLanes (b : Block) (a : Arr) (k n : Nat) (v : Word) : Block :=
  forRange n (fun m acc =>
    if k + m < b.arrSize a then acc.setByte a (k + m) (byteLane m v) else acc) b

/-- A TABLE window write ends the table's validity and any context (44_table_management R111). -/
def Block.invalidate (b : Block) (a : Arr) : Block :=
  match a with
  | .table => { b with tv := false, ctx := .none }
  | _      => b

/-- A window write while BUSY = 0 (20_memory R50, 44_table_management R111). -/
def Block.storeWindow (b : Block) (a : Arr) (k n : Nat) (v : Word) : Block := (b.writeLanes a k n v).invalidate a

/-- `MemRead(off, n)` (20_memory R42, R48, R49, R51). -/
def Block.hostRead (b : Block) (off n : Nat) : Block × Reply :=
  if accessOk off n then
    match regionAt b.dataCap off with
    | .register r => (b, .okay (b.readReg r))
    | .reserved   => (b, .okay 0)
    | .window a k => if b.isBusy then (b.capture .busyAccess, .okay 0) else (b, .okay (b.readLanes a k n))
  else (b, .busError)

/-- `MemWrite(off, n, v)` (20_memory R42, R48, R50, R51). -/
def Block.hostWrite (b : Block) (off n : Nat) (v : Word) : Block × Reply :=
  if accessOk off n then
    match regionAt b.dataCap off with
    | .register r => (b.writeReg v r, .okay 0)
    | .reserved   => (b, .okay 0)
    | .window a k => (if b.isBusy then b.capture .busyAccess else b.storeWindow a k n v, .okay 0)
  else (b, .busError)

/-- One host transaction at a block offset (20_memory R42, R52). -/
def Block.transact (b : Block) (off : Nat) : Transaction → Block × Reply
  | .memRead n    => b.hostRead off n
  | .memWrite n v => b.hostWrite off n v

/-- The block offset of a host address, if the block decodes it (20_memory R43). -/
def blockOffset (base addr : Nat) : Option Nat :=
  if base ≤ addr ∧ addr < base + Config.apertureSize then some (addr - base) else none

end Sys2Proof.Machine
end

