-- ==== Sys2Proof/Machine/Master.lean ====
section
/-! DEFINITION. The host's moves: the script's current line and its transaction on the port (00_scope R11, 20_memory R43,
30_encoding R71), and the platform's reset (70_reset R136). -/

namespace Sys2Proof.Machine

/-- The line the script executes next; none after the last line (30_encoding R71). -/
def Master.current (m : Master) : Option ScriptOp := m.script[m.line]?

/-- The host address a line addresses. -/
def scriptAddress : ScriptOp → Nat
  | .read addr _    => addr
  | .write addr _ _ => addr
  | .bnz addr _ _   => addr

/-- The transaction a line issues (30_encoding R71). -/
def scriptTransaction : ScriptOp → Transaction
  | .read _ n    => .memRead n
  | .write _ n v => .memWrite n v
  | .bnz _ _ _   => .memRead 4

/-- The line after `op` got reply `r` (30_encoding R71): BNZ32 continues at its target when `data & mask` is not 0. -/
def nextLine (line : Nat) (op : ScriptOp) (r : Reply) : Nat :=
  match op with
  | .bnz _ mask target => if r.data &&& mask = 0 then line + 1 else target
  | _                  => line + 1

/-- The host after line `op` got reply `r` (30_encoding R71): a read records its reply. -/
def Master.advance (m : Master) (op : ScriptOp) (r : Reply) : Master where
  script := m.script
  line   := nextLine m.line op r
  last   := some r
  record := match op with
    | .read _ _ => m.record ++ [r]
    | _         => m.record

/-- The host's move (00_scope R11): its next transaction takes effect on the block, whole (20_memory R52). Nothing happens
after the script's end. -/
def State.hostMove (s : State) : Host.Outcome State Fault Refusal :=
  match s.master.current with
  | none => .next s
  | some op =>
    match blockOffset s.block.base (scriptAddress op) with
    | none => .fault .outsideAperture
    | some off =>
      let (b, r) := s.block.transact off (scriptTransaction op)
      .next { s with block := b, master := s.master.advance op r }

/-- The word the host's next transaction writes to CMD with a 32-bit write (30_encoding R61, R65), if it is one. -/
def State.commandWord (s : State) : Option Word :=
  match s.master.current with
  | some (.write addr 4 v) => if blockOffset s.block.base addr = some 0x008 then some v else none
  | _ => none

/-- The command the host's next transaction presents to an idle block (20_memory R57: the fetch of a command). -/
def State.presentedCommand (s : State) : Option Instr :=
  if s.block.isBusy then none else s.commandWord.bind fun w => (decode w).instr?

/-- The host after its CMD write: the write is answered OKAY, and the script goes on. -/
def State.commandTaken (s : State) : State :=
  { s with master :=
    { s.master with line := s.master.line + 1, last := some (Reply.okay 0) } }

/-- The reset event (70_reset R136): every register and context register takes its reset value and every array byte a fresh
draw. The parameters and the host's script stay as they are (log 15). -/
def State.resetMove (s : State) : State :=
  { s with block := Block.reset s.block.toParameters (s.block.epoch + 1) }

/-- The move to make when none is scheduled (log 7): the engine step while a command is pending (70_reset R141, the engine
is fair), else the host's. -/
def State.defaultMove (s : State) : Move := if s.block.isBusy then .engine else .host

/-- The next move and the schedule after it. -/
def State.nextMove (s : State) : Move × List Move :=
  match s.schedule with
  | []        => (s.defaultMove, [])
  | m :: rest => (m, rest)

/-- The script that presents command word `w` once, for a block at `base`. -/
def commandScript (base : Nat) (w : Word) : List ScriptOp := [.write (base + regOffset .cmd) 4 w]

end Sys2Proof.Machine
end

