-- ==== Sys2Proof/Machine/Moves.lean ====
section
/-! DEFINITION. The engine's move, the prompt move, and the four moves together (00_scope R11, 70_reset R140, R141). -/

namespace Sys2Proof.Machine

/-- The engine's move (70_reset R140): the pending command is performed; nothing happens while idle. -/
def State.engineMove (s : State) : Host.Outcome State Fault Refusal :=
  match s.block.seq with
  | .idle   => .next s
  | .busy i => exec i s

/-- The host's next transaction and, right after it, the engine step if it is then enabled (log 8). A CMD write that
presents a command to an idle block runs that command. -/
def State.promptMove (s : State) : Host.Outcome State Fault Refusal :=
  match s.presentedCommand with
  | some i => exec i s.commandTaken
  | none =>
    match s.hostMove with
    | .next s'   => s'.engineMove
    | .fault f   => .fault f
    | .refused r => .refused r

/-- A move of the machine. -/
def State.move (s : State) : Move → Host.Outcome State Fault Refusal
  | .host   => s.hostMove
  | .prompt => s.promptMove
  | .engine => s.engineMove
  | .reset  => .next s.resetMove

end Sys2Proof.Machine
end

