-- ==== Sys2Proof/Machine/Step.lean ====
section
/-! DEFINITION. One step of the machine: one move of one agent (00_scope R11, 70_reset R140, R141). -/

namespace Sys2Proof.Machine

/-- One step: the next scheduled move (70_reset R141). -/
def step (s : State) : Host.Outcome State Fault Refusal :=
  State.move { s with schedule := s.nextMove.2 } s.nextMove.1

/-- `s` with the command word `w` as the host's next CMD write, run at the very next step (log 1): a script that writes it,
an idle sequencer to take it, and one prompt move. -/
def State.withFetchWord (s : State) (nbits w : Nat) : State :=
  { s with
    block    := { s.block with seq := .idle }
    master   := { s.master with script := commandScript s.block.base (BitVec.ofNat 32 (w % 2 ^ nbits)), line := 0 }
    schedule := [.prompt] }

end Sys2Proof.Machine
end

