-- ==== Sys2Proof/Machine/Script.lean ====
section
/-! DEFINITION. Host scripts (30_encoding R71, R72): symbols, pseudo-instructions and their expansion, labels, and the
assembled list of transactions. -/

namespace Sys2Proof.Machine

/-- The block offset a script offset names (30_encoding R71). -/
def scriptOffset : ScriptOffset → Nat
  | .num n      => n
  | .reg r plus => regOffset r + plus
  | .keyw plus  => 0x100 + plus
  | .ivw plus   => 0x200 + plus
  | .tabw plus  => 0x300 + plus
  | .dataw plus => 0x1000 + plus

/-- A line after the pseudo-instructions are expanded; a poll is WAIT's BNZ32 to itself. -/
inductive ExpandedLine where
  | label (name : String)
  | op (o : ScriptOp)
  | branch (addr : Nat) (mask : Word) (name : String)
  | poll
deriving DecidableEq, Repr

/-- Consecutive transactions `f (off), f (off + step), ...`, one for each item. -/
def spread {α : Type} (off step : Nat) (f : Nat → α → ScriptOp) : List α → List ExpandedLine
  | []      => []
  | x :: xs => .op (f off x) :: spread (off + step) step f xs

/-- The expansion of a line (30_encoding R71, R72), for a block at `base`. -/
def expandLine (base : Nat) : ScriptLine → List ExpandedLine
  | .label name           => [.label name]
  | .comment _            => []
  | .blank                => []
  | .w32 off v            => [.op (.write (base + scriptOffset off) 4 v)]
  | .w16 off v            => [.op (.write (base + scriptOffset off) 2 v)]
  | .w8 off v             => [.op (.write (base + scriptOffset off) 1 v)]
  | .r32 off              => [.op (.read (base + scriptOffset off) 4)]
  | .r16 off              => [.op (.read (base + scriptOffset off) 2)]
  | .r8 off               => [.op (.read (base + scriptOffset off) 1)]
  | .bnz32 off mask name  => [.branch (base + scriptOffset off) mask name]
  | .cmd i                => [.op (.write (base + regOffset .cmd) 4 (encode i))]
  | .wait                 => [.poll]
  | .run i                => [.op (.write (base + regOffset .cmd) 4 (encode i)), .poll]
  | .ack                  => [.op (.write (base + regOffset .status) 4 0x6)]
  | .loadb off bytes      => spread (base + scriptOffset off) 1 (fun a b => .write a 1 (b.setWidth 32)) bytes
  | .loadw off words      => spread (base + scriptOffset off) 4 (fun a w => .write a 4 w) words
  | .dumpb off count      => spread (base + scriptOffset off) 1 (fun a _ => .read a 1) (List.range count)

/-- The line number a label names, counting the transactions before it from `at0`; none where no line defines it.
DESIGN CHOICE, unsafe: where two lines define it, the first one counts (log 19); 30_encoding R71 does not say which. -/
def findLabel (name : String) (at0 : Nat) : List ExpandedLine → Option Nat
  | []                   => none
  | .label other :: rest => if name = other then some at0 else findLabel name at0 rest
  | _ :: rest            => findLabel name (at0 + 1) rest

/-- The assembled lines from line number `line` on. DESIGN CHOICE, safe: none where the label of a BNZ32 is missing
(log 19); 30_encoding R71 does not say what such a script is. -/
def assembleFrom (base : Nat) (all : List ExpandedLine) (line : Nat) : List ExpandedLine → Option (List ScriptOp)
  | []                => some []
  | .label _ :: rest  => assembleFrom base all line rest
  | .op o :: rest     => (assembleFrom base all (line + 1) rest).map (o :: ·)
  | .poll :: rest     =>
    (assembleFrom base all (line + 1) rest).map (ScriptOp.bnz (base + regOffset .status) 0x1 line :: ·)
  | .branch addr mask name :: rest =>
    match findLabel name 0 all with
    | none        => none
    | some target => (assembleFrom base all (line + 1) rest).map (ScriptOp.bnz addr mask target :: ·)

/-- A host script as the list of transactions it encodes (30_encoding R71). -/
def assemble (base : Nat) (lines : List ScriptLine) : Option (List ScriptOp) :=
  let expanded := lines.flatMap (expandLine base)
  assembleFrom base expanded 0 expanded

end Sys2Proof.Machine
end

