-- ==== Sys2Proof/Safety.lean ====
section
/-! DEFINITION. What a run starts from and ends in (70_reset R149, R150), and the invariants of every reachable state
(10_state R39), in the terms the statements use. -/

namespace Sys2Proof.Machine

/-- Bytes 0..255 of an array hold each value 0..255 exactly once (10_state R39). -/
def Memory.Permutation (m : Memory) (draw : Nat → Byte) : Prop :=
  ∀ v : Byte, ∃! k : Nat, k < 256 ∧ m.read draw k = v

/-- Every array is in canonical form and lists no byte beyond its size. -/
def Block.MemoryWf (b : Block) : Prop := ∀ a : Arr, (b.arr a).wf ∧ (b.arr a).within (b.arrSize a)

/-- The parameter DATA_CAP is an integer in 1..4096 (00_scope R6). -/
def Block.CapLegal (b : Block) : Prop := 1 ≤ b.dataCap ∧ b.dataCap ≤ 4096

/-- A pending command is one the issue checks let through (60_exceptions R120, 20_memory R51). -/
def Block.PendingChecked (b : Block) : Prop := ∀ i : Instr, b.seq = .busy i → b.issueError i = none

/-- The six items of 10_state R39; item 5 (CTX is never 3) is the type of `ctx` and the code STATUS shows. -/
structure Block.Consistent (b : Block) : Prop where
  busyNotDone  : b.isBusy = true → b.done = false
  tableValid   : b.tv = true → b.table.Permutation (b.draw .table)
  ctxNeedsTv   : b.ctx ≠ .none → b.tv = true
  workValid    : b.ctx = .std → b.work.Permutation (b.draw .work)
  ctxNotThree  : b.ctx.code ≠ 3
  errcodeClear : b.err = false → b.errcode = 0

/-- The invariant of the machine: 10_state R39, a legal capacity (00_scope R6), checked pending commands (60_exceptions
R120), canonical arrays, and a base on an aperture boundary (20_memory R43). -/
structure State.Inv (s : State) : Prop where
  consistent : s.block.Consistent
  capacity   : s.block.CapLegal
  pending    : s.block.PendingChecked
  memory     : s.block.MemoryWf
  aligned    : s.block.base % Config.apertureSize = 0

/-- The premise RESET of 70_reset R150: a block just reset, of any legal capacity, at any aligned base. The host's script and
the order of moves are the claim's. -/
structure State.AtReset (s : State) : Prop where
  block    : s.block = Block.reset s.block.toParameters s.block.epoch
  capacity : s.block.CapLegal
  aligned  : s.block.base % Config.apertureSize = 0

/-- A reachable state of the block (70_reset R150): one that steps lead to from the premise RESET. The host is no part of it:
at every step it may run any script, from any line, and the moves may come in any order (00_scope R11, 70_reset R141). -/
inductive Block.Reachable : Block → Prop where
  | reset (s : State) (h : s.AtReset) : Block.Reachable s.block
  | step (s t : State) (h : Block.Reachable s.block) (hs : Machine.step s = .next t) : Block.Reachable t.block

/-- The premise CLEAN of 70_reset R150, less what a claim adds: a reachable state of the block with SEQ = IDLE, which is no
pending command, and ERR = 0. The host's script and the order of moves are the claim's. -/
structure State.Clean (s : State) : Prop where
  reachable : s.block.Reachable
  idle      : s.block.seq = .idle
  noError   : s.block.err = false

/-- The script has executed its last line and no command is pending (70_reset R149). -/
def State.RunOver (s : State) : Prop := s.master.current = none ∧ s.block.seq = .idle

/-- A step that goes on. -/
def State.Goes (s t : State) : Prop := step s = .next t

end Sys2Proof.Machine
end

