-- ==== Sys2Proof/Certificates/Slice0/Obligations.lean ====
section
/-! DEFINITION. The statements for the provers. `Sys2Proof.Spec` transcribes the spec's pseudocode a second time, in
numbers and contents functions instead of words and written bytes, for the statements to compare the machine with. -/

namespace Sys2Proof.Spec

open Sys2Proof.Machine

/-- The contents of an array: the byte at each index, as a number (00_scope R8, R9). -/
abbrev Bytes := Nat → Nat

/-- `A[x] <- v`. -/
def set (A : Bytes) (x v : Nat) : Bytes := fun k => if k = x then v else A k

/-- `swap(A, x, y)` (00_scope R9). -/
def swap (A : Bytes) (x y : Nat) : Bytes := set (set A x (A y)) y (A x)

/-- `byte_k(x)` (00_scope R7). -/
def lane (k x : Nat) : Nat := x / 256 ^ k % 256

/-- `CS(b, p)` (40_selector R73). -/
def cs (b p : Nat) : Nat :=
  let base := if b % 2 = 1 then b else b + 57
  let cand := (base ^^^ 96) % 256
  if cand = p then (cand + 2) % 256 else cand

/-- Phase A after `n` iterations: the position and TABLE (41_key_schedule R82). -/
def phaseA (stride : Nat) (T : Bytes) : Nat → Nat × Bytes
  | 0     => (0, T)
  | n + 1 =>
    let w := phaseA stride T n
    let pos := (w.1 + stride) % 256
    (pos, set w.2 pos n)

/-- The variables of a swapping loop: two indices and the array. -/
structure Loop where
  i : Nat
  j : Nat
  A : Bytes

/-- Phase B after `n` iterations; `i` is the position (41_key_schedule R84). -/
def phaseB (stride L : Nat) (K T : Bytes) : Nat → Loop
  | 0     => ⟨0, 0, T⟩
  | n + 1 =>
    let w := phaseB stride L K T n
    let pos := (w.i + stride) % 256
    let j := (w.j + K (pos % L) + w.A pos) % 256
    ⟨pos, j, swap w.A pos j⟩

/-- The TABLE that SCHEDULE leaves (41_key_schedule R81). -/
def schedule (L : Nat) (K T : Bytes) : Bytes :=
  let stride1 := cs (K 0) 0
  let stride2 := cs (K (1 % L)) stride1
  (phaseB stride2 L K (phaseA stride1 T 256).2 768).A

/-- `ivb(k)` while WORK holds `W` (42_standard_cipher R92). -/
def ivb (ivLen : Nat) (IV W : Bytes) (k : Nat) : Nat := if ivLen = 0 then W k else IV k

/-- The pre-mixing after `n` iterations (42_standard_cipher R93). -/
def premix (sa ivLen : Nat) (IV : Bytes) (start : Loop) : Nat → Loop
  | 0     => start
  | n + 1 =>
    let w := premix sa ivLen IV start n
    let i := (w.i + sa) % 256
    let j := (w.j + ivb ivLen IV w.A (w.j % (if ivLen = 0 then 256 else ivLen)) + w.A i) % 256
    ⟨i, j, swap w.A i j⟩

/-- A keystream loop after `n` iterations (42_standard_cipher R94, 43_simple_cipher R105). -/
def generate (stride addend : Nat) (start : Loop) : Nat → Loop
  | 0     => start
  | n + 1 =>
    let w := generate stride addend start n
    let i := (w.i + stride) % 256
    let j := (w.j + w.A i + addend) % 256
    ⟨i, j, swap w.A i j⟩

/-- The keystream byte of the loop's `n`-th iteration, counted from 0: read after its swap. -/
def keystream (stride addend : Nat) (start : Loop) (n : Nat) : Nat :=
  let w := generate stride addend start (n + 1)
  w.A ((w.A w.i + w.A w.j) % 256)

/-- stride_a of CRYPT (42_standard_cipher R93). -/
def cryptSa (ivLen : Nat) (IV T : Bytes) : Nat := cs (ivb ivLen IV T 0) 0

/-- stride_b of CRYPT (42_standard_cipher R94). -/
def cryptSb (counter ivLen : Nat) (IV T : Bytes) : Nat := cs (lane 0 counter) (cryptSa ivLen IV T)

/-- The loop variables at the start of CRYPT's Step 4 (42_standard_cipher R93, R94). -/
def cryptStart (counter ivLen : Nat) (IV T : Bytes) : Loop :=
  ⟨lane 0 counter, lane 1 counter,
    (premix (cryptSa ivLen IV T) ivLen IV ⟨lane 2 counter, lane 3 counter, T⟩ 256).A⟩

/-- stride_a of SCRYPT (43_simple_cipher R104). -/
def scryptSa (nonce : Nat) : Nat := cs (lane 2 nonce ^^^ lane 1 nonce) 0

/-- stride_b of SCRYPT (43_simple_cipher R104). -/
def scryptSb (nonce : Nat) : Nat := cs (lane 3 nonce ^^^ lane 0 nonce) (scryptSa nonce)

/-- The contents of the block's array `a`. -/
def contents (b : Block) (a : Arr) : Bytes := fun k => (b.byte a k).toNat

/-- A keystream loop of `len` iterations from `start` turned the arrays of `b` into those of `c`: `gen` holds the swapped
array, DATA[n] is XORed with keystream byte n for n < `len`, the other DATA bytes stay, and CI, CJ are the final indices. -/
def Streamed (b c : Block) (gen : Arr) (stride addend : Nat) (start : Loop) (len : Nat) : Prop :=
  (∀ k, k < 256 → contents c gen k = (generate stride addend start len).A k) ∧
  (∀ n, contents c .data n =
    if n < len then contents b .data n ^^^ keystream stride addend start n else contents b .data n) ∧
  c.ci.toNat = (generate stride addend start len).i ∧
  c.cj.toNat = (generate stride addend start len).j

/-- The command `i` is presented to an idle block, or is the pending one. -/
def Ready (s : State) (i : Instr) : Prop := s.block.seq = .idle ∨ s.block.seq = .busy i

/-- The words of 30_encoding R62. -/
def commandWord : Instr → Nat
  | .select     => 0x00000001
  | .schedule   => 0x00000002
  | .crypt      => 0x00000003
  | .cryptCont  => 0x00000103
  | .scrypt     => 0x00000004
  | .scryptCont => 0x00000104
  | .tcommit    => 0x00000005

/-- 30_encoding R63: the fields of a legal word. -/
abbrev legalFields (w : Nat) : Prop :=
  w / 2 ^ 9 = 0 ∧ (1 ≤ w % 256 ∧ w % 256 ≤ 5) ∧ (w / 2 ^ 8 % 2 = 0 ∨ w % 256 = 3 ∨ w % 256 = 4)

/-- `off` names a byte of an array's window (20_memory R44). -/
abbrev inWindow (cap off : Nat) : Prop := (0x100 ≤ off ∧ off < 0x400) ∨ (0x1000 ≤ off ∧ off < 0x1000 + cap)

/-- `off` is reserved (20_memory R48). -/
abbrev isReserved (cap off : Nat) : Prop :=
  (0x038 ≤ off ∧ off < 0x100) ∨ (0x400 ≤ off ∧ off < 0x1000) ∨ (0x1000 + cap ≤ off ∧ off < 0x2000)

/-- The access rules 20_memory R45 and R46 hold. -/
abbrev legalAccess (off n : Nat) : Prop :=
  (n = 1 ∨ n = 2 ∨ n = 4) ∧ off % n = 0 ∧ (off < 0x100 → n = 4)

/-- The size of a transaction. -/
def sizeOfAccess : Transaction → Nat
  | .memRead n    => n
  | .memWrite n _ => n

/-- `b` is the block after at most the host's next transaction (20_memory R52). -/
def AfterAtMostOne (s : State) (b : Block) : Prop :=
  b = s.block ∨
  ∃ op off, s.master.current = some op ∧ off < 0x2000 ∧ scriptAddress op = s.block.base + off ∧
    b = (s.block.transact off (scriptTransaction op)).1

/-- The offsets of the register names (30_encoding R71, 20_memory R44). -/
def registerOffset : Reg → Nat
  | .id => 0x000 | .caps => 0x004 | .cmd => 0x008 | .status => 0x00C | .errcode => 0x010 | .inten => 0x014
  | .keyLen => 0x018 | .ivLen => 0x01C | .counter => 0x020 | .nonce => 0x024 | .dataLen => 0x028 | .selIn => 0x02C
  | .selPrev => 0x030 | .selOut => 0x034

/-- What an offset of a script line stands for (30_encoding R71). -/
def offsetOf : ScriptOffset → Nat
  | .num n      => n
  | .reg r plus => registerOffset r + plus
  | .keyw plus  => 0x100 + plus
  | .ivw plus   => 0x200 + plus
  | .tabw plus  => 0x300 + plus
  | .dataw plus => 0x1000 + plus

/-- How many transactions a line encodes (30_encoding R71, R72). -/
def sizeOfLine : ScriptLine → Nat
  | .label _ | .comment _ | .blank => 0
  | .run _         => 2
  | .loadb _ bytes => bytes.length
  | .loadw _ words => words.length
  | .dumpb _ count => count
  | _              => 1

/-- How many transactions lines encode. -/
def sizeOfLines (lines : List ScriptLine) : Nat := (lines.map sizeOfLine).sum

/-- The transaction at which a script continues at a label: those of the lines before it. -/
def labelAt (script : List ScriptLine) (name : String) : Nat :=
  sizeOfLines (script.takeWhile fun line => line ≠ .label name)

/-- The transactions of one line of a script, the first of which is the script's transaction number `n` (30_encoding R71,
R72), for a block at `base`. -/
def lineTransactions (base : Nat) (script : List ScriptLine) (n : Nat) : ScriptLine → List ScriptOp
  | .label _ | .comment _ | .blank => []
  | .w32 off v           => [.write (base + offsetOf off) 4 v]
  | .w16 off v           => [.write (base + offsetOf off) 2 v]
  | .w8 off v            => [.write (base + offsetOf off) 1 v]
  | .r32 off             => [.read (base + offsetOf off) 4]
  | .r16 off             => [.read (base + offsetOf off) 2]
  | .r8 off              => [.read (base + offsetOf off) 1]
  | .bnz32 off mask name => [.bnz (base + offsetOf off) mask (labelAt script name)]
  | .cmd i               => [.write (base + 0x008) 4 (BitVec.ofNat 32 (commandWord i))]
  | .wait                => [.bnz (base + 0x00C) 1 n]
  | .run i               => [.write (base + 0x008) 4 (BitVec.ofNat 32 (commandWord i)), .bnz (base + 0x00C) 1 (n + 1)]
  | .ack                 => [.write (base + 0x00C) 4 0x6]
  | .loadb off bytes     => bytes.mapIdx fun k b => .write (base + offsetOf off + k) 1 (BitVec.ofNat 32 b.toNat)
  | .loadw off words     => words.mapIdx fun k w => .write (base + offsetOf off + 4 * k) 4 w
  | .dumpb off count     => (List.range count).map fun k => .read (base + offsetOf off + k) 1

/-- The transactions of the lines of `script` from transaction number `n` on. -/
def linesTransactions (base : Nat) (script : List ScriptLine) : Nat → List ScriptLine → List ScriptOp
  | _, []           => []
  | n, line :: rest =>
    lineTransactions base script n line ++ linesTransactions base script (n + sizeOfLine line) rest

/-- Two blocks that differ at most in what no transaction can show: the context registers and WORK, as far as the context
mode lets a later command read them (10_state R37, R38). -/
structure Alike (b c : Block) : Prop where
  rest : c = { b with work := c.work, ci := c.ci, cj := c.cj, csa := c.csa, csb := c.csb }
  std : b.ctx = .std → b.ci = c.ci ∧ b.cj = c.cj ∧ b.csb = c.csb ∧ ∀ k, k < 256 → b.byte .work k = c.byte .work k
  simple : b.ctx = .simple → b.ci = c.ci ∧ b.cj = c.cj ∧ b.csa = c.csa ∧ b.csb = c.csb

end Sys2Proof.Spec

open Sys2Proof Sys2Proof.Machine Sys2Proof.Spec

/-! ### Encoding -/

/-- 30_encoding R62: the legal words are the seven of the table, and the decoder reads each as its command. -/
def Obligations.DecodeReadsExactlyTheSevenWords : Prop :=
  ∀ (w : Word) (i : Instr), (decode w = .command i ↔ w.toNat = commandWord i) ∧ (encode i).toNat = commandWord i

/-- 30_encoding R63: a word is a command exactly when its fields pass the three tests, and any other word written to CMD of
an idle block is rejected with ILLEGAL_CMD. -/
def Obligations.LegalWordsPassTheFieldTests : Prop :=
  (∀ w : Word, (∃ i, decode w = .command i) ↔ legalFields w.toNat) ∧
  (∀ (w : Word) (b : Block), b.seq = .idle → ¬ legalFields w.toNat →
    b.hostWrite 0x008 4 w =
      ({ b with done := false, err := true, errcode := if b.err then b.errcode else 1 }, ⟨.okay, 0⟩))

/-- Words written out from 30_encoding R61 and R64, one row of each family and one word of each reserved kind. -/
def Obligations.WrittenOutWordsDecode : Prop :=
  decodeTableWord 32 0b00000000000000000000000000000001 = some .select ∧
  decodeTableWord 32 0b00000000000000000000000000000010 = some .schedule ∧
  decodeTableWord 32 0b00000000000000000000000100000011 = some .cryptCont ∧
  decodeTableWord 32 0b00000000000000000000000100000100 = some .scryptCont ∧
  decodeTableWord 32 0b00000000000000000000000000000101 = some .tcommit ∧
  decode 0x00000006 = .refused .reservedOpcode ∧
  decode 0x00000105 = .refused .continuationNotAllowed ∧
  decode 0x80000003 = .refused .reservedBits

/-! ### Steps -/

/-- 20_memory R57: at a prompt move whose transaction is a CMD write of command `i`'s word to an idle block, a step is the
command's meaning, with the script one line on and the write answered OKAY. -/
def Obligations.StepRunsThePresentedCommand : Prop :=
  ∀ (s : State) (rest : List Move) (addr : Nat) (w : Word) (i : Instr),
    s.schedule = .prompt :: rest → s.block.seq = .idle → s.master.script[s.master.line]? = some (.write addr 4 w) →
    addr = s.block.base + 0x008 → decode w = .command i →
    step s = exec i
      { s with
        schedule := rest
        master := { s.master with line := s.master.line + 1, last := some ⟨.okay, 0⟩ } }

/-- 70_reset R140: at an engine move with command `i` pending, a step is the command's meaning; with none pending nothing
happens. -/
def Obligations.StepRunsThePendingCommand : Prop :=
  ∀ (s : State) (rest : List Move), s.schedule = .engine :: rest →
    (∀ i, s.block.seq = .busy i → step s = exec i { s with schedule := rest }) ∧
    (s.block.seq = .idle → step s = .next { s with schedule := rest })

/-- 20_memory R42, R43, R53: at a host move a step is the one transaction of the script's current line, at the block offset
its address names; BNZ32 is the host's branch (30_encoding R71); an address outside the aperture never reaches the block
(log 11). -/
def Obligations.StepTakesOneHostTransaction : Prop :=
  ∀ (s : State) (rest : List Move) (op : ScriptOp),
    s.schedule = .host :: rest → s.master.script[s.master.line]? = some op →
    (∀ off, off < 0x2000 → scriptAddress op = s.block.base + off →
      ∃ t, step s = .next t ∧ t.block = (s.block.transact off (scriptTransaction op)).1 ∧
        t.block.toParameters = s.block.toParameters ∧ t.schedule = rest ∧ t.master.script = s.master.script ∧
        t.master.last = some (s.block.transact off (scriptTransaction op)).2 ∧
        t.master.line =
          (match op with
           | .bnz _ mask target =>
             if (s.block.transact off (scriptTransaction op)).2.data &&& mask = 0 then s.master.line + 1 else target
           | _ => s.master.line + 1) ∧
        t.master.record =
          (match op with
           | .read _ _ => s.master.record ++ [(s.block.transact off (scriptTransaction op)).2]
           | _ => s.master.record)) ∧
    ((scriptAddress op < s.block.base ∨ s.block.base + 0x2000 ≤ scriptAddress op) → step s = .fault .outsideAperture)

/-- 20_memory R54, 70_reset R141: a prompt move is the host's transaction followed by the engine step where it is then
enabled; so a command run from IDLE is its issue followed by its engine step. -/
def Obligations.PromptMoveIsHostMoveThenEngineMove : Prop :=
  ∀ s : State,
    (∀ s', s.hostMove = .next s' → s.promptMove = s'.engineMove) ∧
    (∀ f, s.hostMove = .fault f → s.promptMove = .fault f)

/-- 70_reset R141: with no move scheduled, the next step is the engine's while a command is pending, so the command
completes (log 7: the model's choice of a fair order). -/
def Obligations.PendingCommandCompletesNext : Prop :=
  ∀ (s : State) (i : Instr), s.schedule = [] → s.block.seq = .busy i →
    ∃ t, step s = .next t ∧ t.block.seq = .idle ∧ t.block.done = true ∧ t.master = s.master

/-! ### The selector -/

/-- 40_selector R73: `cs` is the pseudocode of `CS`, on every byte and every 32-bit `previous`. -/
def Obligations.SelectorIsThePseudocode : Prop :=
  ∀ (b : Byte) (p : Word), (Machine.cs b p).toNat = Spec.cs b.toNat p.toNat

/-- 40_selector R74, R75: the result is odd, in 1..255, and never `previous`; from 256 on `previous` changes nothing; and
CS(0x9F, 0xFF) = 0x01. -/
def Obligations.SelectorIsOddAndNeverPrevious : Prop :=
  (∀ (b : Byte) (p : Word),
    (Machine.cs b p).toNat % 2 = 1 ∧ 1 ≤ (Machine.cs b p).toNat ∧ (Machine.cs b p).toNat ≤ 255 ∧
    (Machine.cs b p).setWidth 32 ≠ p ∧
    (256 ≤ p.toNat → (Machine.cs b p).toNat = ((if b.toNat % 2 = 1 then b.toNat else b.toNat + 57) ^^^ 96) % 256)) ∧
  Machine.cs 0x9F 0xFF = 0x01

/-- 40_selector R77 for every stride the selector gives: the 256 positions of a walk from `p0` are pairwise distinct, so
each index is visited once, and the last is `p0`. -/
def Obligations.SelectorWalkVisitsEveryIndexOnce : Prop :=
  ∀ (b : Byte) (p : Word) (p0 : Byte),
    (∀ x : Byte, ∃! k : Nat, (1 ≤ k ∧ k ≤ 256) ∧ (p0.toNat + k * (Machine.cs b p).toNat) % 256 = x.toNat) ∧
    (p0.toNat + 256 * (Machine.cs b p).toNat) % 256 = p0.toNat

/-- 40_selector R78: with `previous` 0 each odd value comes from exactly two bytes, the odd byte `v XOR 96` and one even
byte. -/
def Obligations.SelectorHitsEachOddValueTwice : Prop :=
  ∀ v : Byte, v.toNat % 2 = 1 →
    ∃ e : Byte, e.toNat % 2 = 0 ∧ (v ^^^ 96).toNat % 2 = 1 ∧ ∀ b : Byte, Machine.cs b 0 = v ↔ b = v ^^^ 96 ∨ b = e

/-- 40_selector R80: the two strides of a command differ. -/
def Obligations.TheTwoStridesDiffer : Prop :=
  ∀ b : Block, b.stride2 ≠ b.stride1 ∧ b.cryptStrideB ≠ b.cryptStrideA ∧ b.scryptStrideB ≠ b.scryptStrideA

/-- 43_simple_cipher R110: the setup tuples that nonces reach are exactly those with two different odd strides. -/
def Obligations.NoncesReachExactlyTheSetupTuples : Prop :=
  ∀ (b : Block) (i j sa sb : Byte),
    (∃ nonce : Word,
      byteLane 0 nonce = i ∧ byteLane 1 nonce = j ∧
      Block.scryptStrideA { b with nonce := nonce } = sa ∧ Block.scryptStrideB { b with nonce := nonce } = sb) ↔
    (sa.toNat % 2 = 1 ∧ sb.toNat % 2 = 1 ∧ sb ≠ sa)

/-! ### What each command does -/

/-- 40_selector R76: SELECT writes SEL_OUT and completes; it never fails, and changes nothing else. -/
def Obligations.SelectWritesSelOut : Prop :=
  ∀ s : State, Ready s .select →
    ∃ t, exec .select s = .next t ∧
      t.block.selOut.toNat = Spec.cs s.block.selIn.toNat s.block.selPrev.toNat ∧
      t = { s with block := { s.block with selOut := t.block.selOut, seq := .idle, done := true } }

/-- 41_key_schedule R81, R82, R83, R84, R86: SCHEDULE with KEY_LEN not 0 builds TABLE by its two phases, sets TV, ends the
context and completes; it changes nothing else. -/
def Obligations.ScheduleBuildsTheTable : Prop :=
  ∀ s : State, Ready s .schedule → s.block.keyLen ≠ 0 →
    ∃ t, exec .schedule s = .next t ∧
      (∀ k, k < 256 →
        contents t.block .table k =
          Spec.schedule s.block.keyLen.toNat (contents s.block .key) (contents s.block .table) k) ∧
      t = { s with block :=
            { s.block with table := t.block.table, tv := true, ctx := .none, seq := .idle, done := true } }

/-- 42_standard_cipher R91 to R95: CRYPT copies TABLE, pre-mixes, XORs the keystream into DATA[0..DATA_LEN-1], saves the
context and completes; it changes nothing else, TABLE, KEY and IV among it (R97). -/
def Obligations.CryptTransformsData : Prop :=
  ∀ s : State, Ready s .crypt → s.block.tv = true → s.block.dataLen.toNat ≤ s.block.dataCap →
    ∃ t, exec .crypt s = .next t ∧
      Streamed s.block t.block .work
        (cryptSb s.block.counter.toNat s.block.ivLen.toNat (contents s.block .iv) (contents s.block .table)) 0
        (cryptStart s.block.counter.toNat s.block.ivLen.toNat (contents s.block .iv) (contents s.block .table))
        s.block.dataLen.toNat ∧
      t.block.csa.toNat = cryptSa s.block.ivLen.toNat (contents s.block .iv) (contents s.block .table) ∧
      t.block.csb.toNat =
        cryptSb s.block.counter.toNat s.block.ivLen.toNat (contents s.block .iv) (contents s.block .table) ∧
      t = { s with block :=
            { s.block with
              work := t.block.work, data := t.block.data, ci := t.block.ci, cj := t.block.cj
              csa := t.block.csa, csb := t.block.csb, ctx := .std, seq := .idle, done := true } }

/-- 42_standard_cipher R96: CRYPT.CONT continues the keystream from WORK, CI, CJ and CSB, writes CI and CJ and completes; it
changes nothing else. -/
def Obligations.CryptContContinuesTheKeystream : Prop :=
  ∀ s : State, Ready s .cryptCont → s.block.ctx = .std → s.block.dataLen.toNat ≤ s.block.dataCap →
    ∃ t, exec .cryptCont s = .next t ∧
      Streamed s.block t.block .work s.block.csb.toNat 0
        ⟨s.block.ci.toNat, s.block.cj.toNat, contents s.block .work⟩ s.block.dataLen.toNat ∧
      t = { s with block :=
            { s.block with
              work := t.block.work, data := t.block.data, ci := t.block.ci, cj := t.block.cj
              seq := .idle, done := true } }

/-- 43_simple_cipher R103 to R106: SCRYPT swaps TABLE in place, XORs the keystream into DATA[0..DATA_LEN-1], saves the
context and completes; it changes nothing else. -/
def Obligations.ScryptTransformsDataAndTable : Prop :=
  ∀ s : State, Ready s .scrypt → s.block.tv = true → s.block.dataLen.toNat ≤ s.block.dataCap →
    ∃ t, exec .scrypt s = .next t ∧
      Streamed s.block t.block .table (scryptSa s.block.nonce.toNat) (scryptSb s.block.nonce.toNat)
        ⟨lane 0 s.block.nonce.toNat, lane 1 s.block.nonce.toNat, contents s.block .table⟩ s.block.dataLen.toNat ∧
      t.block.csa.toNat = scryptSa s.block.nonce.toNat ∧ t.block.csb.toNat = scryptSb s.block.nonce.toNat ∧
      t = { s with block :=
            { s.block with
              table := t.block.table, data := t.block.data, ci := t.block.ci, cj := t.block.cj
              csa := t.block.csa, csb := t.block.csb, ctx := .simple, seq := .idle, done := true } }

/-- 43_simple_cipher R107: SCRYPT.CONT continues the keystream from TABLE, CI, CJ, CSA and CSB, writes CI and CJ and
completes; it changes nothing else. -/
def Obligations.ScryptContContinuesTheKeystream : Prop :=
  ∀ s : State, Ready s .scryptCont → s.block.ctx = .simple → s.block.dataLen.toNat ≤ s.block.dataCap →
    ∃ t, exec .scryptCont s = .next t ∧
      Streamed s.block t.block .table s.block.csa.toNat s.block.csb.toNat
        ⟨s.block.ci.toNat, s.block.cj.toNat, contents s.block .table⟩ s.block.dataLen.toNat ∧
      t = { s with block :=
            { s.block with
              table := t.block.table, data := t.block.data, ci := t.block.ci, cj := t.block.cj
              seq := .idle, done := true } }

/-- 44_table_management R113, 60_exceptions R122: TCOMMIT sets TV when TABLE is a permutation, else captures NOT_PERM and
leaves TV; it completes in both outcomes and changes nothing else. -/
def Obligations.TcommitChecksTheTable : Prop :=
  ∀ s : State, Ready s .tcommit →
    (s.block.table.Permutation (s.block.draw .table) →
      exec .tcommit s = .next { s with block := { s.block with tv := true, seq := .idle, done := true } }) ∧
    (¬ s.block.table.Permutation (s.block.draw .table) →
      exec .tcommit s = .next
        { s with block :=
          { s.block with
            errcode := if s.block.err then s.block.errcode else 8, err := true, seq := .idle, done := true } })

/-! ### Properties of the key schedule and the ciphers -/

/-- 41_key_schedule R87: SCHEDULE leaves a permutation; phase A puts n at the n-th position of the stride1 walk, so 255 at
0 and 0 at stride1. -/
def Obligations.ScheduleLeavesAPermutation : Prop :=
  (∀ s : State, Ready s .schedule → s.block.keyLen ≠ 0 →
    ∃ t, exec .schedule s = .next t ∧ t.block.table.Permutation (t.block.draw .table)) ∧
  (∀ b : Block,
    (∀ n, n < 256 →
      (fillTable b.stride1 b.table).read (b.draw .table) ((n + 1) * b.stride1.toNat % 256) = BitVec.ofNat 8 n) ∧
    (fillTable b.stride1 b.table).read (b.draw .table) 0 = 255 ∧
    (fillTable b.stride1 b.table).read (b.draw .table) b.stride1.toNat = 0)

/-- 41_key_schedule R85, R88: the TABLE that SCHEDULE leaves depends only on KEY_LEN, every value from 256 on being alike,
and on KEY[0 .. min(KEY_LEN, 256) - 1]. -/
def Obligations.ScheduleDependsOnTheKeyOnly : Prop :=
  ∀ s s' : State, Ready s .schedule → Ready s' .schedule → s.block.keyLen ≠ 0 → s'.block.keyLen ≠ 0 →
    (s.block.keyLen = s'.block.keyLen ∨ (256 ≤ s.block.keyLen.toNat ∧ 256 ≤ s'.block.keyLen.toNat)) →
    (∀ k, k < min s.block.keyLen.toNat 256 → s.block.byte .key k = s'.block.byte .key k) →
    ∃ t t', exec .schedule s = .next t ∧ exec .schedule s' = .next t' ∧
      ∀ k, k < 256 → t.block.byte .table k = t'.block.byte .table k

/-- 42_standard_cipher R98, R101: CRYPT's effect on a DATA byte depends only on TABLE, COUNTER, IV_LEN, every value from 256
on being alike, and IV[0 .. min(IV_LEN, 256) - 1]: the XOR difference of a transformed byte, the keystream byte, is the same
in two states that agree on those. -/
def Obligations.CryptKeystreamDependsOnItsOperandsOnly : Prop :=
  ∀ s s' : State, Ready s .crypt → Ready s' .crypt → s.block.tv = true → s'.block.tv = true →
    s.block.dataLen.toNat ≤ s.block.dataCap → s'.block.dataLen.toNat ≤ s'.block.dataCap →
    s.block.counter = s'.block.counter →
    (s.block.ivLen = s'.block.ivLen ∨ (256 ≤ s.block.ivLen.toNat ∧ 256 ≤ s'.block.ivLen.toNat)) →
    (∀ k, k < min s.block.ivLen.toNat 256 → s.block.byte .iv k = s'.block.byte .iv k) →
    (∀ k, k < 256 → s.block.byte .table k = s'.block.byte .table k) →
    ∃ t t', exec .crypt s = .next t ∧ exec .crypt s' = .next t' ∧
      ∀ n, n < s.block.dataLen.toNat → n < s'.block.dataLen.toNat →
        s.block.byte .data n ^^^ t.block.byte .data n = s'.block.byte .data n ^^^ t'.block.byte .data n

/-- 42_standard_cipher R98: a second CRYPT with nothing changed in between restores every DATA byte. -/
def Obligations.CryptTwiceRestoresData : Prop :=
  ∀ s : State, Ready s .crypt → s.block.tv = true → s.block.dataLen.toNat ≤ s.block.dataCap →
    ∃ t u, exec .crypt s = .next t ∧ exec .crypt t = .next u ∧
      ∀ n, u.block.byte .data n = s.block.byte .data n

/-- 42_standard_cipher R99: CRYPT over the first `a` bytes and CRYPT.CONT over the next `c`, which the host moved to DATA[0],
give the bytes of one CRYPT over all of them, and leave the same WORK, CI and CJ; and CRYPT.CONT over `a` bytes, then over `c`,
is one CRYPT.CONT over all of them, so any number of pieces is one call. -/
def Obligations.CryptInPiecesIsOneCrypt : Prop :=
  (∀ (s : State) (a c : Word) (moved : Memory),
     s.block.seq = .idle → s.block.tv = true → a.toNat + c.toNat ≤ s.block.dataCap → a.toNat + c.toNat < 2 ^ 32 →
     (∀ n, n < c.toNat → moved.read (s.block.draw .data) n = s.block.byte .data (a.toNat + n)) →
     ∃ one first rest,
       exec .crypt { s with block := { s.block with dataLen := a + c } } = .next one ∧
       exec .crypt { s with block := { s.block with dataLen := a } } = .next first ∧
       exec .cryptCont { first with block := { first.block with dataLen := c, data := moved } } = .next rest ∧
       (∀ n, n < a.toNat → first.block.byte .data n = one.block.byte .data n) ∧
       (∀ n, n < c.toNat → rest.block.byte .data n = one.block.byte .data (a.toNat + n)) ∧
       rest.block.work = one.block.work ∧ rest.block.ci = one.block.ci ∧ rest.block.cj = one.block.cj) ∧
  (∀ (s : State) (a c : Word) (moved : Memory),
     s.block.seq = .idle → s.block.ctx = .std → a.toNat + c.toNat ≤ s.block.dataCap → a.toNat + c.toNat < 2 ^ 32 →
     (∀ n, n < c.toNat → moved.read (s.block.draw .data) n = s.block.byte .data (a.toNat + n)) →
     ∃ one first rest,
       exec .cryptCont { s with block := { s.block with dataLen := a + c } } = .next one ∧
       exec .cryptCont { s with block := { s.block with dataLen := a } } = .next first ∧
       exec .cryptCont { first with block := { first.block with dataLen := c, data := moved } } = .next rest ∧
       (∀ n, n < a.toNat → first.block.byte .data n = one.block.byte .data n) ∧
       (∀ n, n < c.toNat → rest.block.byte .data n = one.block.byte .data (a.toNat + n)) ∧
       rest.block.work = one.block.work ∧ rest.block.ci = one.block.ci ∧ rest.block.cj = one.block.cj)

/-- 43_simple_cipher R108: SCRYPT run again on its output from the TABLE it started from, with the same nonce, restores every
DATA byte and ends with the same TABLE bytes. -/
def Obligations.ScryptFromTheRestoredTableInverts : Prop :=
  ∀ (s : State) (restored : Memory), Ready s .scrypt → s.block.tv = true →
    s.block.dataLen.toNat ≤ s.block.dataCap →
    (∀ k, k < 256 → restored.read (s.block.draw .table) k = s.block.byte .table k) →
    ∃ t u, exec .scrypt s = .next t ∧
      exec .scrypt { t with block := { t.block with table := restored } } = .next u ∧
      (∀ n, u.block.byte .data n = s.block.byte .data n) ∧
      (∀ k, k < 256 → u.block.byte .table k = t.block.byte .table k)

/-- 43_simple_cipher R107: SCRYPT over the first `a` bytes and SCRYPT.CONT over the next `c`, which the host moved to
DATA[0], give the bytes of one SCRYPT over all of them, and leave the same TABLE, CI and CJ; and SCRYPT.CONT over `a` bytes,
then over `c`, is one SCRYPT.CONT over all of them, so any number of pieces is one call. -/
def Obligations.ScryptInPiecesIsOneScrypt : Prop :=
  (∀ (s : State) (a c : Word) (moved : Memory),
     s.block.seq = .idle → s.block.tv = true → a.toNat + c.toNat ≤ s.block.dataCap → a.toNat + c.toNat < 2 ^ 32 →
     (∀ n, n < c.toNat → moved.read (s.block.draw .data) n = s.block.byte .data (a.toNat + n)) →
     ∃ one first rest,
       exec .scrypt { s with block := { s.block with dataLen := a + c } } = .next one ∧
       exec .scrypt { s with block := { s.block with dataLen := a } } = .next first ∧
       exec .scryptCont { first with block := { first.block with dataLen := c, data := moved } } = .next rest ∧
       (∀ n, n < a.toNat → first.block.byte .data n = one.block.byte .data n) ∧
       (∀ n, n < c.toNat → rest.block.byte .data n = one.block.byte .data (a.toNat + n)) ∧
       rest.block.table = one.block.table ∧ rest.block.ci = one.block.ci ∧ rest.block.cj = one.block.cj) ∧
  (∀ (s : State) (a c : Word) (moved : Memory),
     s.block.seq = .idle → s.block.ctx = .simple → a.toNat + c.toNat ≤ s.block.dataCap → a.toNat + c.toNat < 2 ^ 32 →
     (∀ n, n < c.toNat → moved.read (s.block.draw .data) n = s.block.byte .data (a.toNat + n)) →
     ∃ one first rest,
       exec .scryptCont { s with block := { s.block with dataLen := a + c } } = .next one ∧
       exec .scryptCont { s with block := { s.block with dataLen := a } } = .next first ∧
       exec .scryptCont { first with block := { first.block with dataLen := c, data := moved } } = .next rest ∧
       (∀ n, n < a.toNat → first.block.byte .data n = one.block.byte .data n) ∧
       (∀ n, n < c.toNat → rest.block.byte .data n = one.block.byte .data (a.toNat + n)) ∧
       rest.block.table = one.block.table ∧ rest.block.ci = one.block.ci ∧ rest.block.cj = one.block.cj)

/-- 42_standard_cipher R100, 43_simple_cipher R106: with DATA_LEN = 0 CRYPT and SCRYPT change neither DATA nor TABLE, and
save the context with the indices of the low lanes; the `.CONT` forms change nothing but DONE (and complete). -/
def Obligations.EmptyBufferChangesNoData : Prop :=
  ∀ s : State, s.block.dataLen = 0 →
    (Ready s .crypt → s.block.tv = true →
      ∃ t, exec .crypt s = .next t ∧ t.block.data = s.block.data ∧ t.block.table = s.block.table ∧
        t.block.ci = byteLane 0 s.block.counter ∧ t.block.cj = byteLane 1 s.block.counter ∧ t.block.ctx = .std) ∧
    (Ready s .scrypt → s.block.tv = true →
      ∃ t, exec .scrypt s = .next t ∧ t.block.data = s.block.data ∧ t.block.table = s.block.table ∧
        t.block.ci = byteLane 0 s.block.nonce ∧ t.block.cj = byteLane 1 s.block.nonce ∧ t.block.ctx = .simple) ∧
    (Ready s .cryptCont → s.block.ctx = .std →
      exec .cryptCont s = .next { s with block := { s.block with seq := .idle, done := true } }) ∧
    (Ready s .scryptCont → s.block.ctx = .simple →
      exec .scryptCont s = .next { s with block := { s.block with seq := .idle, done := true } })

/-! ### Errors -/

/-- 60_exceptions R118: ERR is set, the first code since ERR was clear is kept, and nothing else changes. -/
def Obligations.CaptureKeepsTheFirstCode : Prop :=
  ∀ (b : Block) (c d : ErrCode),
    (b.err = false → b.capture c = { b with err := true, errcode := c.code }) ∧
    (b.err = true → b.capture c = b) ∧
    (b.capture c).capture d = b.capture c

/-- 60_exceptions R119: the codes of the eight causes. -/
def Obligations.ErrorCodesAreTheTable : Prop :=
  ErrCode.illegalCmd.code = 1 ∧ ErrCode.busyCmd.code = 2 ∧ ErrCode.busyAccess.code = 3 ∧ ErrCode.invalidKey.code = 4 ∧
  ErrCode.noTable.code = 5 ∧ ErrCode.lenRange.code = 6 ∧ ErrCode.noContext.code = 7 ∧ ErrCode.notPerm.code = 8

/-- 60_exceptions R120: a 32-bit write of a word to CMD, its eight steps in order, in the word's own fields. -/
def Obligations.IssueRunsTheChecksInOrder : Prop :=
  ∀ (b : Block) (w : Word),
    b.hostWrite 0x008 4 w =
      (if b.isBusy then b.capture .busyCmd
        else
          let d : Block := { b with done := false }
          let op := w.toNat % 256
          let cont := w.toNat / 256 % 2
          if ¬ legalFields w.toNat then d.capture .illegalCmd
          else if op = 2 ∧ b.keyLen.toNat = 0 then d.capture .invalidKey
          else if (op = 3 ∨ op = 4) ∧ cont = 1 ∧ b.ctx ≠ (if op = 3 then Ctx.std else Ctx.simple) then
            d.capture .noContext
          else if (op = 3 ∨ op = 4) ∧ cont = 0 ∧ b.tv = false then d.capture .noTable
          else if (op = 3 ∨ op = 4) ∧ b.dataLen.toNat > b.dataCap then d.capture .lenRange
          else { d with seq := (decode w).instr?.elim d.seq Seq.busy },
        ⟨.okay, 0⟩)

/-- 60_exceptions R121: a word that is not accepted changes nothing but DONE, ERR and ERRCODE; DONE goes to 0, except for a
BUSY_CMD rejection, and ERR to 1. -/
def Obligations.RejectedCommandOnlyReports : Prop :=
  ∀ (b : Block) (w : Word), (b.issue w).seq = b.seq →
    ∃ c : ErrCode,
      b.issue w =
        { b with
          done := if b.isBusy then b.done else false
          err := true
          errcode := if b.err then b.errcode else c.code } ∧
      (b.isBusy = true ↔ c = .busyCmd)

/-- 41_key_schedule R81, R85: SCHEDULE with KEY_LEN = 0, presented to an idle block, is rejected with INVALID_KEY and changes
nothing else. -/
def Obligations.ScheduleWithoutKeyIsRejected : Prop :=
  ∀ s : State, s.block.seq = .idle → s.block.keyLen = 0 →
    exec .schedule s = .next
      { s with block :=
        { s.block with done := false, err := true, errcode := if s.block.err then s.block.errcode else 4 } }

/-- 42_standard_cipher R91, 43_simple_cipher R103: CRYPT and SCRYPT with TV = 0, presented to an idle block, are rejected with
NO_TABLE, whatever DATA_LEN is, and change nothing else. -/
def Obligations.CipherWithoutTableIsRejected : Prop :=
  ∀ (s : State) (i : Instr), i = .crypt ∨ i = .scrypt → s.block.seq = .idle → s.block.tv = false →
    exec i s = .next
      { s with block :=
        { s.block with done := false, err := true, errcode := if s.block.err then s.block.errcode else 5 } }

/-- 42_standard_cipher R96, 43_simple_cipher R107: a `.CONT` command whose context is not the saved one, presented to an idle
block, is rejected with NO_CONTEXT, whatever DATA_LEN is, and keeps the context it did not match (60_exceptions R121). -/
def Obligations.ContinuationWithoutContextIsRejected : Prop :=
  ∀ s : State, s.block.seq = .idle →
    (s.block.ctx ≠ .std →
      exec .cryptCont s = .next
        { s with block :=
          { s.block with done := false, err := true, errcode := if s.block.err then s.block.errcode else 7 } }) ∧
    (s.block.ctx ≠ .simple →
      exec .scryptCont s = .next
        { s with block :=
          { s.block with done := false, err := true, errcode := if s.block.err then s.block.errcode else 7 } })

/-- 60_exceptions R120, step 7: a cipher command that passed its other checks is rejected with LEN_RANGE when
DATA_LEN > DATA_CAP. -/
def Obligations.LengthBeyondCapacityIsRejected : Prop :=
  ∀ (s : State) (i : Instr), s.block.seq = .idle → s.block.dataCap < s.block.dataLen.toNat →
    ((i = .crypt ∨ i = .scrypt) ∧ s.block.tv = true ∨ i = .cryptCont ∧ s.block.ctx = .std ∨
      i = .scryptCont ∧ s.block.ctx = .simple) →
    exec i s = .next
      { s with block :=
        { s.block with done := false, err := true, errcode := if s.block.err then s.block.errcode else 6 } }

/-- 10_state R21, 60_exceptions R125: a STATUS write is OKAY also while BUSY; bit 1 clears DONE, bit 2 clears ERR and
ERRCODE; no other bit of the data does anything, and nothing else changes. -/
def Obligations.StatusWriteClearsDoneAndError : Prop :=
  ∀ (b : Block) (v : Word),
    b.hostWrite 0x00C 4 v =
      ({ b with
          done := if v.toNat / 2 % 2 = 1 then false else b.done
          err := if v.toNat / 4 % 2 = 1 then false else b.err
          errcode := if v.toNat / 4 % 2 = 1 then 0 else b.errcode }, ⟨.okay, 0⟩)

/-- 60_exceptions R126: the interrupt line, and its level after reset. -/
def Obligations.InterruptLineIsTheFormula : Prop :=
  (∀ b : Block, b.irq = true ↔ (b.done = true ∧ b.doneIe = true) ∨ (b.err = true ∧ b.errIe = true)) ∧
  (∀ (p : Parameters) (epoch : Nat), (Block.reset p epoch).irq = false) ∧
  (∀ (b : Block) (v : Word),
    b.hostWrite 0x014 4 v =
      ({ b with doneIe := decide (v.toNat % 2 = 1), errIe := decide (v.toNat / 2 % 2 = 1) }, ⟨.okay, 0⟩))

/-! ### The host port -/

/-- 10_state R18 to R31: a register read is OKAY, changes nothing, also while BUSY, and returns the register; STATUS is its
fields at their places, CMD reads 0. -/
def Obligations.RegisterReadsReturnTheRegisters : Prop :=
  ∀ b : Block,
    b.hostRead 0x000 4 = (b, ⟨.okay, 0x58524334⟩) ∧
    b.hostRead 0x004 4 = (b, ⟨.okay, BitVec.ofNat 32 b.dataCap⟩) ∧
    b.hostRead 0x008 4 = (b, ⟨.okay, 0⟩) ∧
    (∃ v : Word, b.hostRead 0x00C 4 = (b, ⟨.okay, v⟩) ∧
      v.toNat = (if b.isBusy then 1 else 0) + (if b.done then 2 else 0) + (if b.err then 4 else 0) +
        (if b.tv then 8 else 0) + (match b.ctx with | .none => 0 | .std => 16 | .simple => 32)) ∧
    b.hostRead 0x010 4 = (b, ⟨.okay, b.errcode.setWidth 32⟩) ∧
    (∃ v : Word, b.hostRead 0x014 4 = (b, ⟨.okay, v⟩) ∧
      v.toNat = (if b.doneIe then 1 else 0) + (if b.errIe then 2 else 0)) ∧
    b.hostRead 0x018 4 = (b, ⟨.okay, b.keyLen⟩) ∧ b.hostRead 0x01C 4 = (b, ⟨.okay, b.ivLen⟩) ∧
    b.hostRead 0x020 4 = (b, ⟨.okay, b.counter⟩) ∧ b.hostRead 0x024 4 = (b, ⟨.okay, b.nonce⟩) ∧
    b.hostRead 0x028 4 = (b, ⟨.okay, b.dataLen⟩) ∧ b.hostRead 0x02C 4 = (b, ⟨.okay, b.selIn.setWidth 32⟩) ∧
    b.hostRead 0x030 4 = (b, ⟨.okay, b.selPrev⟩) ∧ b.hostRead 0x034 4 = (b, ⟨.okay, b.selOut.setWidth 32⟩)

/-- 10_state R18, R19, R22, R24 to R31: while BUSY = 0 a write to a configuration register stores the data (SEL_IN its low
byte) and nothing else; a write to a read-only register is ignored at any time; both are OKAY. -/
def Obligations.RegisterWritesStoreOrAreIgnored : Prop :=
  ∀ (b : Block) (v : Word),
    (b.seq = .idle →
      b.hostWrite 0x018 4 v = ({ b with keyLen := v }, ⟨.okay, 0⟩) ∧
      b.hostWrite 0x01C 4 v = ({ b with ivLen := v }, ⟨.okay, 0⟩) ∧
      b.hostWrite 0x020 4 v = ({ b with counter := v }, ⟨.okay, 0⟩) ∧
      b.hostWrite 0x024 4 v = ({ b with nonce := v }, ⟨.okay, 0⟩) ∧
      b.hostWrite 0x028 4 v = ({ b with dataLen := v }, ⟨.okay, 0⟩) ∧
      b.hostWrite 0x02C 4 v = ({ b with selIn := BitVec.ofNat 8 v.toNat }, ⟨.okay, 0⟩) ∧
      b.hostWrite 0x030 4 v = ({ b with selPrev := v }, ⟨.okay, 0⟩)) ∧
    (∀ off, off = 0x000 ∨ off = 0x004 ∨ off = 0x010 ∨ off = 0x034 → b.hostWrite off 4 v = (b, ⟨.okay, 0⟩))

/-- 20_memory R42, R45, R46, 60_exceptions R123: SLVERR answers exactly the transactions of another size, those not naturally
aligned, and the 1 and 2-byte ones below 0x100; such a transaction has no effect and data 0. -/
def Obligations.BusErrorsAreExactlyTheBadAccesses : Prop :=
  ∀ (b : Block) (off : Nat) (t : Transaction),
    ((b.transact off t).2.resp = .slverr ↔ ¬ legalAccess off (sizeOfAccess t)) ∧
    (¬ legalAccess off (sizeOfAccess t) → b.transact off t = (b, ⟨.slverr, 0⟩))

/-- 20_memory R48: a legal access to a reserved offset is OKAY with data 0 and has no effect, also while BUSY = 1. -/
def Obligations.ReservedOffsetsReadZeroAndIgnoreWrites : Prop :=
  ∀ (b : Block) (off : Nat) (t : Transaction), legalAccess off (sizeOfAccess t) → isReserved b.dataCap off →
    b.transact off t = (b, ⟨.okay, 0⟩)

/-- 20_memory R49: a read changes nothing, with one exception: a legal window read while BUSY = 1 captures BUSY_ACCESS, and
returns 0 (R51). Where DATA_CAP is no multiple of 4, a busy read that begins in DATA and ends beyond it counts as a window
read: that is the model's reading (log 18). -/
def Obligations.ReadsChangeNothingButWindowReadsWhileBusy : Prop :=
  ∀ (b : Block) (off n : Nat),
    (¬ (b.isBusy = true ∧ legalAccess off n ∧ inWindow b.dataCap off) → (b.hostRead off n).1 = b) ∧
    (b.isBusy = true ∧ legalAccess off n ∧ inWindow b.dataCap off →
      b.hostRead off n = (b.capture .busyAccess, ⟨.okay, 0⟩))

/-- 20_memory R47: an idle window read of `n` bytes returns byte `k + m` of the array in data bits 8m+7 to 8m, and 0 above; a
byte at or beyond DATA_CAP reads 0 (R48; log 18). -/
def Obligations.WindowReadsAreLittleEndian : Prop :=
  ∀ (b : Block) (a : Arr) (o k n : Nat), windowBase a = some o → k < b.arrSize a → b.dataCap ≤ 4096 →
    legalAccess (o + k) n → b.seq = .idle →
    ∃ v : Word, b.hostRead (o + k) n = (b, ⟨.okay, v⟩) ∧
      ∀ m, m < 4 →
        lane m v.toNat = if m < n ∧ k + m < b.arrSize a then (b.byte a (k + m)).toNat else 0

/-- 20_memory R47, R50, 44_table_management R111: an idle window write of `n` bytes stores data bits 8m+7 to 8m in byte
`k + m`, for the bytes of the array (log 18), and leaves every other byte of every array; a TABLE write clears TV and CTX
whatever the data; no register changes otherwise. -/
def Obligations.WindowWritesStoreTheirBytes : Prop :=
  ∀ (b : Block) (a : Arr) (o k n : Nat) (v : Word), windowBase a = some o → k < b.arrSize a → b.dataCap ≤ 4096 →
    legalAccess (o + k) n → b.seq = .idle →
    ∃ c : Block, b.hostWrite (o + k) n v = (c, ⟨.okay, 0⟩) ∧
      (∀ (a' : Arr) (x : Nat),
        (c.byte a' x).toNat =
          if a' = a ∧ k ≤ x ∧ x < k + n ∧ x < b.arrSize a then lane (x - k) v.toNat else (b.byte a' x).toNat) ∧
      (∀ a', a' ≠ a → c.arr a' = b.arr a') ∧
      c = { b with
            key := c.key, iv := c.iv, table := c.table, data := c.data
            tv := if a = .table then false else b.tv
            ctx := if a = .table then .none else b.ctx }

/-- 20_memory R51, 60_exceptions R124: what a write does while BUSY = 1, region by region (reads: R49 above); every such
transaction is OKAY. Where DATA_CAP is no multiple of 4, a busy write that begins in DATA and ends beyond it counts as a window
write: that is the model's reading (log 18). -/
def Obligations.BusyPortDropsAndReports : Prop :=
  ∀ (b : Block) (i : Instr) (v : Word), b.seq = .busy i →
    b.hostWrite 0x008 4 v = (b.capture .busyCmd, ⟨.okay, 0⟩) ∧
    (∀ off, off = 0x018 ∨ off = 0x01C ∨ off = 0x020 ∨ off = 0x024 ∨ off = 0x028 ∨ off = 0x02C ∨ off = 0x030 →
      b.hostWrite off 4 v = (b.capture .busyAccess, ⟨.okay, 0⟩)) ∧
    (∀ off n, legalAccess off n → inWindow b.dataCap off →
      b.hostWrite off n v = (b.capture .busyAccess, ⟨.okay, 0⟩))

/-- 60_exceptions R124, 30_encoding R67: a transaction while a command is pending does not affect the command: it completes as
if the transaction had not happened, apart from STATUS.ERR, ERRCODE and INTEN. -/
def Obligations.TransactionsDoNotAffectThePendingCommand : Prop :=
  ∀ (s : State) (i : Instr) (off : Nat) (t : Transaction), s.block.seq = .busy i →
    ∃ u u', exec i s = .next u ∧ exec i { s with block := (s.block.transact off t).1 } = .next u' ∧
      u' = { u with block :=
        { u.block with
          err := u'.block.err, errcode := u'.block.errcode
          doneIe := u'.block.doneIe, errIe := u'.block.errIe } }

/-! ### Reset -/

/-- The values 70_reset R136 and 10_state section 7 list for the block after reset, register by register; every array byte is
its draw (10_state R32), which the model numbers by reset event (log 2). Nothing is said of CI, CJ, CSA and CSB (log 4). -/
def Obligations.ResetSetsTheListedValues : Prop :=
  ∀ (p : Parameters) (epoch : Nat),
    let b := Block.reset p epoch
    b.seq = .idle ∧ b.statusWord = 0 ∧ b.readReg .errcode = 0 ∧ b.readReg .inten = 0 ∧ b.readReg .keyLen = 0 ∧
    b.readReg .ivLen = 0 ∧ b.readReg .counter = 0 ∧ b.readReg .nonce = 0 ∧ b.readReg .dataLen = 0 ∧
    b.readReg .selIn = 0 ∧ b.readReg .selPrev = 0 ∧ b.readReg .selOut = 0 ∧ b.readReg .id = 0x58524334 ∧
    b.readReg .caps = BitVec.ofNat 32 p.dataCap ∧ b.irq = false ∧
    ∀ a k, b.byte a k = Config.resetDraw epoch a k

/-- 70_reset R136, R137: a reset event discards a pending command, whether or not its engine step had happened, and leaves a
block just reset, with fresh draws. The exact next state also holds the model's own choices: the draws are numbered by the
next reset event (log 2), CI, CJ, CSA and CSB are those of `Block.reset` (log 4), and the host and BASE stay (log 15). -/
def Obligations.ResetDiscardsThePendingCommand : Prop :=
  ∀ (s : State) (rest : List Move), s.schedule = .reset :: rest →
    step s = .next { s with block := Block.reset s.block.toParameters (s.block.epoch + 1), schedule := rest } ∧
    ∀ i t, s.block.seq = .busy i → exec i s = .next t → t.resetMove.block = s.resetMove.block

/-- 70_reset R138, R140, 20_memory R52: no step but the reset event redraws the arrays or drops a pending command: at any other
step the block goes through at most the host's next transaction, which leaves the command pending, and the step's block is
that one or the one the command's engine step makes of it. No step, the reset event included, changes the configuration, DATA_CAP
and BASE (00_scope R6; logs 5, 6 and 15: the model's choice). -/
def Obligations.OnlyResetDiscardsOrRedraws : Prop :=
  ∀ s t : State, step s = .next t →
    t.block.toParameters = s.block.toParameters ∧
    (s.nextMove.1 ≠ .reset →
      t.block.epoch = s.block.epoch ∧
      ∀ i, s.block.seq = .busy i →
        ∃ b, AfterAtMostOne s b ∧ b.seq = .busy i ∧
          (t.block = b ∨
            ∃ u, exec i { s with block := b } = .next u ∧ t.block = u.block ∧
              t.block.seq = .idle ∧ t.block.done = true))

/-! ### Invariants -/

/-- Every step keeps the invariant: 10_state R39, a checked pending command, canonical arrays, a legal capacity and base. -/
def Obligations.StepKeepsTheInvariant : Prop :=
  ∀ s t : State, s.Inv → step s = .next t → t.Inv

/-- A block just reset, of any legal capacity at any aligned base, with any script and schedule, meets the invariant, and so
does the machine's own reset state (whose capacity and base are the model's choice, logs 5 and 6). -/
def Obligations.ResetMeetsTheInvariant : Prop :=
  (∀ (p : Parameters) (epoch : Nat) (m : Master) (schedule : List Move),
    1 ≤ p.dataCap → p.dataCap ≤ 4096 → p.base % 0x2000 = 0 → State.Inv ⟨Block.reset p epoch, m, schedule⟩) ∧
  State.reset.Inv

/-- 10_state R39: the six items hold in every reachable state of the block, whatever the host runs. -/
def Obligations.ReachableStatesAreConsistent : Prop :=
  ∀ b : Block, b.Reachable →
    (b.isBusy = true → b.done = false) ∧
    (b.tv = true → b.table.Permutation (b.draw .table)) ∧
    (b.ctx ≠ .none → b.tv = true) ∧
    (b.ctx = .std → b.work.Permutation (b.draw .work)) ∧
    b.statusWord.toNat / 16 % 4 ≠ 3 ∧
    (b.err = false → b.errcode = 0)

/-- 60_exceptions R119: codes 9 to 255 are never produced: every step keeps ERRCODE at most 8, and 0 while ERR = 0. -/
def Obligations.StepKeepsErrcodeLegal : Prop :=
  ∀ s t : State, (s.block.errcode.toNat ≤ 8 ∧ (s.block.err = false → s.block.errcode = 0)) → step s = .next t →
    t.block.errcode.toNat ≤ 8 ∧ (t.block.err = false → t.block.errcode = 0)

/-- 44_table_management R115: TV goes to 1 only at a step that performs SCHEDULE or TCOMMIT, and to 0 only at reset or a
host write to the TABLE window while BUSY = 0. -/
def Obligations.TableValidChangesOnlyAtItsEvents : Prop :=
  ∀ s t : State, step s = .next t →
    (s.block.tv = false → t.block.tv = true →
      t.block.seq = .idle ∧ t.block.done = true ∧
      ∃ i, (i = .schedule ∨ i = .tcommit) ∧ (s.block.seq = .busy i ∨ s.presentedCommand = some i)) ∧
    (s.block.tv = true → t.block.tv = false →
      s.nextMove.1 = .reset ∨
      (s.block.seq = .idle ∧ t.block.ctx = .none ∧
        ∃ addr n v, s.master.current = some (.write addr n v) ∧ s.block.base + 0x300 ≤ addr ∧ addr < s.block.base + 0x400))

/-- 10_state R38, 70_reset R146: CTX changes only to NONE, at reset, a TABLE write or SCHEDULE, to STD at CRYPT, or to SIMPLE at
SCRYPT; each of the commands is one that was pending or is presented at this step, and completes. -/
def Obligations.ContextChangesOnlyAtItsEvents : Prop :=
  ∀ s t : State, step s = .next t → t.block.ctx ≠ s.block.ctx →
    (t.block.ctx = .none ∧
      (s.nextMove.1 = .reset ∨
       (s.block.seq = .idle ∧
        ∃ addr n v, s.master.current = some (.write addr n v) ∧ s.block.base + 0x300 ≤ addr ∧ addr < s.block.base + 0x400))) ∨
    (t.block.seq = .idle ∧ t.block.done = true ∧
      ∃ i, (s.block.seq = .busy i ∨ s.presentedCommand = some i) ∧
        (i = .schedule ∧ t.block.ctx = .none ∨ i = .crypt ∧ t.block.ctx = .std ∨ i = .scrypt ∧ t.block.ctx = .simple))

/-- 10_state R37, R38, 00_scope R12: WORK and the context registers are observable only through the commands their context
mode lets read them. Two machines that differ in nothing else go on in step: same replies, same record, same interrupt line,
and they still differ in nothing else. -/
def Obligations.HiddenStateStaysHidden : Prop :=
  ∀ (s : State) (c : Block) (t : State), s.Inv → Alike s.block c → step s = .next t →
    ∃ d : Block, step { s with block := c } = .next { t with block := d } ∧ Alike t.block d ∧ d.irq = t.block.irq

/-! ### Host scripts -/

/-- 30_encoding R71, R72: a script whose branches all have a label assembles to the transactions of its lines in order, for
every line form, offset, symbol, byte and word list and count. A label that two lines define means the first of them, and a
script with a missing label does not assemble: both are the model's choice (log 19). -/
def Obligations.ScriptLinesEncodeTheirTransactions : Prop :=
  ∀ (base : Nat) (script : List ScriptLine),
    ((∀ off mask name, .bnz32 off mask name ∈ script → .label name ∈ script) →
      assemble base script = some (linesTransactions base script 0 script)) ∧
    (∀ off mask name, .bnz32 off mask name ∈ script → .label name ∉ script → assemble base script = none)

/-- A script that is `RUN i` (30_encoding R72), on an idle block, is over (70_reset R149) after three steps: the CMD write,
the engine step if the command was accepted, and the poll that finds BUSY = 0. The three, and the one poll, are the model's
choice: they rest on the default order of moves (log 7). 70_reset R141 lets a WAIT poll any number of times. -/
def Obligations.RunOfACommandEndsInThreeSteps : Prop :=
  ∀ (s : State) (i : Instr), s.block.seq = .idle → s.schedule = [] → s.master.line = 0 →
    assemble s.block.base [.run i] = some s.master.script →
    ∃ t, Sys2Proof.core.run 3 s = .next t ∧ t.RunOver
end

