-- ==== Sys2Proof/Laws/State.lean ====
section
/-! SUPPORT. One lemma per field per update of the block, so that no proof unfolds a record update. -/

namespace Sys2Proof.Machine

@[simp] theorem Block.capture_seq (b : Block) (c : ErrCode) : (b.capture c).seq = b.seq := rfl
@[simp] theorem Block.capture_done (b : Block) (c : ErrCode) : (b.capture c).done = b.done := rfl
@[simp] theorem Block.capture_err (b : Block) (c : ErrCode) : (b.capture c).err = true := rfl
@[simp] theorem Block.capture_tv (b : Block) (c : ErrCode) : (b.capture c).tv = b.tv := rfl
@[simp] theorem Block.capture_ctx (b : Block) (c : ErrCode) : (b.capture c).ctx = b.ctx := rfl
@[simp] theorem Block.capture_errcode (b : Block) (c : ErrCode) : (b.capture c).errcode = (if b.err then b.errcode else c.code) := rfl
@[simp] theorem Block.capture_doneIe (b : Block) (c : ErrCode) : (b.capture c).doneIe = b.doneIe := rfl
@[simp] theorem Block.capture_errIe (b : Block) (c : ErrCode) : (b.capture c).errIe = b.errIe := rfl
@[simp] theorem Block.capture_keyLen (b : Block) (c : ErrCode) : (b.capture c).keyLen = b.keyLen := rfl
@[simp] theorem Block.capture_ivLen (b : Block) (c : ErrCode) : (b.capture c).ivLen = b.ivLen := rfl
@[simp] theorem Block.capture_counter (b : Block) (c : ErrCode) : (b.capture c).counter = b.counter := rfl
@[simp] theorem Block.capture_nonce (b : Block) (c : ErrCode) : (b.capture c).nonce = b.nonce := rfl
@[simp] theorem Block.capture_dataLen (b : Block) (c : ErrCode) : (b.capture c).dataLen = b.dataLen := rfl
@[simp] theorem Block.capture_selIn (b : Block) (c : ErrCode) : (b.capture c).selIn = b.selIn := rfl
@[simp] theorem Block.capture_selPrev (b : Block) (c : ErrCode) : (b.capture c).selPrev = b.selPrev := rfl
@[simp] theorem Block.capture_selOut (b : Block) (c : ErrCode) : (b.capture c).selOut = b.selOut := rfl
@[simp] theorem Block.capture_key (b : Block) (c : ErrCode) : (b.capture c).key = b.key := rfl
@[simp] theorem Block.capture_iv (b : Block) (c : ErrCode) : (b.capture c).iv = b.iv := rfl
@[simp] theorem Block.capture_table (b : Block) (c : ErrCode) : (b.capture c).table = b.table := rfl
@[simp] theorem Block.capture_data (b : Block) (c : ErrCode) : (b.capture c).data = b.data := rfl
@[simp] theorem Block.capture_work (b : Block) (c : ErrCode) : (b.capture c).work = b.work := rfl
@[simp] theorem Block.capture_ci (b : Block) (c : ErrCode) : (b.capture c).ci = b.ci := rfl
@[simp] theorem Block.capture_cj (b : Block) (c : ErrCode) : (b.capture c).cj = b.cj := rfl
@[simp] theorem Block.capture_csa (b : Block) (c : ErrCode) : (b.capture c).csa = b.csa := rfl
@[simp] theorem Block.capture_csb (b : Block) (c : ErrCode) : (b.capture c).csb = b.csb := rfl
@[simp] theorem Block.capture_dataCap (b : Block) (c : ErrCode) : (b.capture c).dataCap = b.dataCap := rfl
@[simp] theorem Block.capture_base (b : Block) (c : ErrCode) : (b.capture c).base = b.base := rfl
@[simp] theorem Block.capture_toParameters (b : Block) (c : ErrCode) : (b.capture c).toParameters = b.toParameters := rfl
@[simp] theorem Block.capture_epoch (b : Block) (c : ErrCode) : (b.capture c).epoch = b.epoch := rfl

@[simp] theorem Block.clearDone_seq (b : Block) : b.clearDone.seq = b.seq := rfl
@[simp] theorem Block.clearDone_done (b : Block) : b.clearDone.done = false := rfl
@[simp] theorem Block.clearDone_err (b : Block) : b.clearDone.err = b.err := rfl
@[simp] theorem Block.clearDone_tv (b : Block) : b.clearDone.tv = b.tv := rfl
@[simp] theorem Block.clearDone_ctx (b : Block) : b.clearDone.ctx = b.ctx := rfl
@[simp] theorem Block.clearDone_errcode (b : Block) : b.clearDone.errcode = b.errcode := rfl
@[simp] theorem Block.clearDone_doneIe (b : Block) : b.clearDone.doneIe = b.doneIe := rfl
@[simp] theorem Block.clearDone_errIe (b : Block) : b.clearDone.errIe = b.errIe := rfl
@[simp] theorem Block.clearDone_keyLen (b : Block) : b.clearDone.keyLen = b.keyLen := rfl
@[simp] theorem Block.clearDone_ivLen (b : Block) : b.clearDone.ivLen = b.ivLen := rfl
@[simp] theorem Block.clearDone_counter (b : Block) : b.clearDone.counter = b.counter := rfl
@[simp] theorem Block.clearDone_nonce (b : Block) : b.clearDone.nonce = b.nonce := rfl
@[simp] theorem Block.clearDone_dataLen (b : Block) : b.clearDone.dataLen = b.dataLen := rfl
@[simp] theorem Block.clearDone_selIn (b : Block) : b.clearDone.selIn = b.selIn := rfl
@[simp] theorem Block.clearDone_selPrev (b : Block) : b.clearDone.selPrev = b.selPrev := rfl
@[simp] theorem Block.clearDone_selOut (b : Block) : b.clearDone.selOut = b.selOut := rfl
@[simp] theorem Block.clearDone_key (b : Block) : b.clearDone.key = b.key := rfl
@[simp] theorem Block.clearDone_iv (b : Block) : b.clearDone.iv = b.iv := rfl
@[simp] theorem Block.clearDone_table (b : Block) : b.clearDone.table = b.table := rfl
@[simp] theorem Block.clearDone_data (b : Block) : b.clearDone.data = b.data := rfl
@[simp] theorem Block.clearDone_work (b : Block) : b.clearDone.work = b.work := rfl
@[simp] theorem Block.clearDone_ci (b : Block) : b.clearDone.ci = b.ci := rfl
@[simp] theorem Block.clearDone_cj (b : Block) : b.clearDone.cj = b.cj := rfl
@[simp] theorem Block.clearDone_csa (b : Block) : b.clearDone.csa = b.csa := rfl
@[simp] theorem Block.clearDone_csb (b : Block) : b.clearDone.csb = b.csb := rfl
@[simp] theorem Block.clearDone_dataCap (b : Block) : b.clearDone.dataCap = b.dataCap := rfl
@[simp] theorem Block.clearDone_base (b : Block) : b.clearDone.base = b.base := rfl
@[simp] theorem Block.clearDone_toParameters (b : Block) : b.clearDone.toParameters = b.toParameters := rfl
@[simp] theorem Block.clearDone_epoch (b : Block) : b.clearDone.epoch = b.epoch := rfl

@[simp] theorem Block.complete_seq (b : Block) : b.complete.seq = .idle := rfl
@[simp] theorem Block.complete_done (b : Block) : b.complete.done = true := rfl
@[simp] theorem Block.complete_err (b : Block) : b.complete.err = b.err := rfl
@[simp] theorem Block.complete_tv (b : Block) : b.complete.tv = b.tv := rfl
@[simp] theorem Block.complete_ctx (b : Block) : b.complete.ctx = b.ctx := rfl
@[simp] theorem Block.complete_errcode (b : Block) : b.complete.errcode = b.errcode := rfl
@[simp] theorem Block.complete_doneIe (b : Block) : b.complete.doneIe = b.doneIe := rfl
@[simp] theorem Block.complete_errIe (b : Block) : b.complete.errIe = b.errIe := rfl
@[simp] theorem Block.complete_keyLen (b : Block) : b.complete.keyLen = b.keyLen := rfl
@[simp] theorem Block.complete_ivLen (b : Block) : b.complete.ivLen = b.ivLen := rfl
@[simp] theorem Block.complete_counter (b : Block) : b.complete.counter = b.counter := rfl
@[simp] theorem Block.complete_nonce (b : Block) : b.complete.nonce = b.nonce := rfl
@[simp] theorem Block.complete_dataLen (b : Block) : b.complete.dataLen = b.dataLen := rfl
@[simp] theorem Block.complete_selIn (b : Block) : b.complete.selIn = b.selIn := rfl
@[simp] theorem Block.complete_selPrev (b : Block) : b.complete.selPrev = b.selPrev := rfl
@[simp] theorem Block.complete_selOut (b : Block) : b.complete.selOut = b.selOut := rfl
@[simp] theorem Block.complete_key (b : Block) : b.complete.key = b.key := rfl
@[simp] theorem Block.complete_iv (b : Block) : b.complete.iv = b.iv := rfl
@[simp] theorem Block.complete_table (b : Block) : b.complete.table = b.table := rfl
@[simp] theorem Block.complete_data (b : Block) : b.complete.data = b.data := rfl
@[simp] theorem Block.complete_work (b : Block) : b.complete.work = b.work := rfl
@[simp] theorem Block.complete_ci (b : Block) : b.complete.ci = b.ci := rfl
@[simp] theorem Block.complete_cj (b : Block) : b.complete.cj = b.cj := rfl
@[simp] theorem Block.complete_csa (b : Block) : b.complete.csa = b.csa := rfl
@[simp] theorem Block.complete_csb (b : Block) : b.complete.csb = b.csb := rfl
@[simp] theorem Block.complete_dataCap (b : Block) : b.complete.dataCap = b.dataCap := rfl
@[simp] theorem Block.complete_base (b : Block) : b.complete.base = b.base := rfl
@[simp] theorem Block.complete_toParameters (b : Block) : b.complete.toParameters = b.toParameters := rfl
@[simp] theorem Block.complete_epoch (b : Block) : b.complete.epoch = b.epoch := rfl

@[simp] theorem Block.writeStatus_seq (b : Block) (v : Word) : (b.writeStatus v).seq = b.seq := rfl
@[simp] theorem Block.writeStatus_done (b : Block) (v : Word) : (b.writeStatus v).done = (b.done && !v.getLsbD 1) := rfl
@[simp] theorem Block.writeStatus_err (b : Block) (v : Word) : (b.writeStatus v).err = (b.err && !v.getLsbD 2) := rfl
@[simp] theorem Block.writeStatus_tv (b : Block) (v : Word) : (b.writeStatus v).tv = b.tv := rfl
@[simp] theorem Block.writeStatus_ctx (b : Block) (v : Word) : (b.writeStatus v).ctx = b.ctx := rfl
@[simp] theorem Block.writeStatus_errcode (b : Block) (v : Word) : (b.writeStatus v).errcode = (if v.getLsbD 2 then 0 else b.errcode) := rfl
@[simp] theorem Block.writeStatus_doneIe (b : Block) (v : Word) : (b.writeStatus v).doneIe = b.doneIe := rfl
@[simp] theorem Block.writeStatus_errIe (b : Block) (v : Word) : (b.writeStatus v).errIe = b.errIe := rfl
@[simp] theorem Block.writeStatus_keyLen (b : Block) (v : Word) : (b.writeStatus v).keyLen = b.keyLen := rfl
@[simp] theorem Block.writeStatus_ivLen (b : Block) (v : Word) : (b.writeStatus v).ivLen = b.ivLen := rfl
@[simp] theorem Block.writeStatus_counter (b : Block) (v : Word) : (b.writeStatus v).counter = b.counter := rfl
@[simp] theorem Block.writeStatus_nonce (b : Block) (v : Word) : (b.writeStatus v).nonce = b.nonce := rfl
@[simp] theorem Block.writeStatus_dataLen (b : Block) (v : Word) : (b.writeStatus v).dataLen = b.dataLen := rfl
@[simp] theorem Block.writeStatus_selIn (b : Block) (v : Word) : (b.writeStatus v).selIn = b.selIn := rfl
@[simp] theorem Block.writeStatus_selPrev (b : Block) (v : Word) : (b.writeStatus v).selPrev = b.selPrev := rfl
@[simp] theorem Block.writeStatus_selOut (b : Block) (v : Word) : (b.writeStatus v).selOut = b.selOut := rfl
@[simp] theorem Block.writeStatus_key (b : Block) (v : Word) : (b.writeStatus v).key = b.key := rfl
@[simp] theorem Block.writeStatus_iv (b : Block) (v : Word) : (b.writeStatus v).iv = b.iv := rfl
@[simp] theorem Block.writeStatus_table (b : Block) (v : Word) : (b.writeStatus v).table = b.table := rfl
@[simp] theorem Block.writeStatus_data (b : Block) (v : Word) : (b.writeStatus v).data = b.data := rfl
@[simp] theorem Block.writeStatus_work (b : Block) (v : Word) : (b.writeStatus v).work = b.work := rfl
@[simp] theorem Block.writeStatus_ci (b : Block) (v : Word) : (b.writeStatus v).ci = b.ci := rfl
@[simp] theorem Block.writeStatus_cj (b : Block) (v : Word) : (b.writeStatus v).cj = b.cj := rfl
@[simp] theorem Block.writeStatus_csa (b : Block) (v : Word) : (b.writeStatus v).csa = b.csa := rfl
@[simp] theorem Block.writeStatus_csb (b : Block) (v : Word) : (b.writeStatus v).csb = b.csb := rfl
@[simp] theorem Block.writeStatus_dataCap (b : Block) (v : Word) : (b.writeStatus v).dataCap = b.dataCap := rfl
@[simp] theorem Block.writeStatus_base (b : Block) (v : Word) : (b.writeStatus v).base = b.base := rfl
@[simp] theorem Block.writeStatus_toParameters (b : Block) (v : Word) : (b.writeStatus v).toParameters = b.toParameters := rfl
@[simp] theorem Block.writeStatus_epoch (b : Block) (v : Word) : (b.writeStatus v).epoch = b.epoch := rfl

@[simp] theorem Block.writeInten_seq (b : Block) (v : Word) : (b.writeInten v).seq = b.seq := rfl
@[simp] theorem Block.writeInten_done (b : Block) (v : Word) : (b.writeInten v).done = b.done := rfl
@[simp] theorem Block.writeInten_err (b : Block) (v : Word) : (b.writeInten v).err = b.err := rfl
@[simp] theorem Block.writeInten_tv (b : Block) (v : Word) : (b.writeInten v).tv = b.tv := rfl
@[simp] theorem Block.writeInten_ctx (b : Block) (v : Word) : (b.writeInten v).ctx = b.ctx := rfl
@[simp] theorem Block.writeInten_errcode (b : Block) (v : Word) : (b.writeInten v).errcode = b.errcode := rfl
@[simp] theorem Block.writeInten_doneIe (b : Block) (v : Word) : (b.writeInten v).doneIe = v.getLsbD 0 := rfl
@[simp] theorem Block.writeInten_errIe (b : Block) (v : Word) : (b.writeInten v).errIe = v.getLsbD 1 := rfl
@[simp] theorem Block.writeInten_keyLen (b : Block) (v : Word) : (b.writeInten v).keyLen = b.keyLen := rfl
@[simp] theorem Block.writeInten_ivLen (b : Block) (v : Word) : (b.writeInten v).ivLen = b.ivLen := rfl
@[simp] theorem Block.writeInten_counter (b : Block) (v : Word) : (b.writeInten v).counter = b.counter := rfl
@[simp] theorem Block.writeInten_nonce (b : Block) (v : Word) : (b.writeInten v).nonce = b.nonce := rfl
@[simp] theorem Block.writeInten_dataLen (b : Block) (v : Word) : (b.writeInten v).dataLen = b.dataLen := rfl
@[simp] theorem Block.writeInten_selIn (b : Block) (v : Word) : (b.writeInten v).selIn = b.selIn := rfl
@[simp] theorem Block.writeInten_selPrev (b : Block) (v : Word) : (b.writeInten v).selPrev = b.selPrev := rfl
@[simp] theorem Block.writeInten_selOut (b : Block) (v : Word) : (b.writeInten v).selOut = b.selOut := rfl
@[simp] theorem Block.writeInten_key (b : Block) (v : Word) : (b.writeInten v).key = b.key := rfl
@[simp] theorem Block.writeInten_iv (b : Block) (v : Word) : (b.writeInten v).iv = b.iv := rfl
@[simp] theorem Block.writeInten_table (b : Block) (v : Word) : (b.writeInten v).table = b.table := rfl
@[simp] theorem Block.writeInten_data (b : Block) (v : Word) : (b.writeInten v).data = b.data := rfl
@[simp] theorem Block.writeInten_work (b : Block) (v : Word) : (b.writeInten v).work = b.work := rfl
@[simp] theorem Block.writeInten_ci (b : Block) (v : Word) : (b.writeInten v).ci = b.ci := rfl
@[simp] theorem Block.writeInten_cj (b : Block) (v : Word) : (b.writeInten v).cj = b.cj := rfl
@[simp] theorem Block.writeInten_csa (b : Block) (v : Word) : (b.writeInten v).csa = b.csa := rfl
@[simp] theorem Block.writeInten_csb (b : Block) (v : Word) : (b.writeInten v).csb = b.csb := rfl
@[simp] theorem Block.writeInten_dataCap (b : Block) (v : Word) : (b.writeInten v).dataCap = b.dataCap := rfl
@[simp] theorem Block.writeInten_base (b : Block) (v : Word) : (b.writeInten v).base = b.base := rfl
@[simp] theorem Block.writeInten_toParameters (b : Block) (v : Word) : (b.writeInten v).toParameters = b.toParameters := rfl
@[simp] theorem Block.writeInten_epoch (b : Block) (v : Word) : (b.writeInten v).epoch = b.epoch := rfl

@[simp] theorem performSelect_seq (b : Block) : (performSelect b).seq = b.seq := rfl
@[simp] theorem performSelect_done (b : Block) : (performSelect b).done = b.done := rfl
@[simp] theorem performSelect_err (b : Block) : (performSelect b).err = b.err := rfl
@[simp] theorem performSelect_tv (b : Block) : (performSelect b).tv = b.tv := rfl
@[simp] theorem performSelect_ctx (b : Block) : (performSelect b).ctx = b.ctx := rfl
@[simp] theorem performSelect_errcode (b : Block) : (performSelect b).errcode = b.errcode := rfl
@[simp] theorem performSelect_doneIe (b : Block) : (performSelect b).doneIe = b.doneIe := rfl
@[simp] theorem performSelect_errIe (b : Block) : (performSelect b).errIe = b.errIe := rfl
@[simp] theorem performSelect_keyLen (b : Block) : (performSelect b).keyLen = b.keyLen := rfl
@[simp] theorem performSelect_ivLen (b : Block) : (performSelect b).ivLen = b.ivLen := rfl
@[simp] theorem performSelect_counter (b : Block) : (performSelect b).counter = b.counter := rfl
@[simp] theorem performSelect_nonce (b : Block) : (performSelect b).nonce = b.nonce := rfl
@[simp] theorem performSelect_dataLen (b : Block) : (performSelect b).dataLen = b.dataLen := rfl
@[simp] theorem performSelect_selIn (b : Block) : (performSelect b).selIn = b.selIn := rfl
@[simp] theorem performSelect_selPrev (b : Block) : (performSelect b).selPrev = b.selPrev := rfl
@[simp] theorem performSelect_selOut (b : Block) : (performSelect b).selOut = cs b.selIn b.selPrev := rfl
@[simp] theorem performSelect_key (b : Block) : (performSelect b).key = b.key := rfl
@[simp] theorem performSelect_iv (b : Block) : (performSelect b).iv = b.iv := rfl
@[simp] theorem performSelect_table (b : Block) : (performSelect b).table = b.table := rfl
@[simp] theorem performSelect_data (b : Block) : (performSelect b).data = b.data := rfl
@[simp] theorem performSelect_work (b : Block) : (performSelect b).work = b.work := rfl
@[simp] theorem performSelect_ci (b : Block) : (performSelect b).ci = b.ci := rfl
@[simp] theorem performSelect_cj (b : Block) : (performSelect b).cj = b.cj := rfl
@[simp] theorem performSelect_csa (b : Block) : (performSelect b).csa = b.csa := rfl
@[simp] theorem performSelect_csb (b : Block) : (performSelect b).csb = b.csb := rfl
@[simp] theorem performSelect_dataCap (b : Block) : (performSelect b).dataCap = b.dataCap := rfl
@[simp] theorem performSelect_base (b : Block) : (performSelect b).base = b.base := rfl
@[simp] theorem performSelect_toParameters (b : Block) : (performSelect b).toParameters = b.toParameters := rfl
@[simp] theorem performSelect_epoch (b : Block) : (performSelect b).epoch = b.epoch := rfl

@[simp] theorem performSchedule_seq (b : Block) : (performSchedule b).seq = b.seq := rfl
@[simp] theorem performSchedule_done (b : Block) : (performSchedule b).done = b.done := rfl
@[simp] theorem performSchedule_err (b : Block) : (performSchedule b).err = b.err := rfl
@[simp] theorem performSchedule_tv (b : Block) : (performSchedule b).tv = true := rfl
@[simp] theorem performSchedule_ctx (b : Block) : (performSchedule b).ctx = .none := rfl
@[simp] theorem performSchedule_errcode (b : Block) : (performSchedule b).errcode = b.errcode := rfl
@[simp] theorem performSchedule_doneIe (b : Block) : (performSchedule b).doneIe = b.doneIe := rfl
@[simp] theorem performSchedule_errIe (b : Block) : (performSchedule b).errIe = b.errIe := rfl
@[simp] theorem performSchedule_keyLen (b : Block) : (performSchedule b).keyLen = b.keyLen := rfl
@[simp] theorem performSchedule_ivLen (b : Block) : (performSchedule b).ivLen = b.ivLen := rfl
@[simp] theorem performSchedule_counter (b : Block) : (performSchedule b).counter = b.counter := rfl
@[simp] theorem performSchedule_nonce (b : Block) : (performSchedule b).nonce = b.nonce := rfl
@[simp] theorem performSchedule_dataLen (b : Block) : (performSchedule b).dataLen = b.dataLen := rfl
@[simp] theorem performSchedule_selIn (b : Block) : (performSchedule b).selIn = b.selIn := rfl
@[simp] theorem performSchedule_selPrev (b : Block) : (performSchedule b).selPrev = b.selPrev := rfl
@[simp] theorem performSchedule_selOut (b : Block) : (performSchedule b).selOut = b.selOut := rfl
@[simp] theorem performSchedule_key (b : Block) : (performSchedule b).key = b.key := rfl
@[simp] theorem performSchedule_iv (b : Block) : (performSchedule b).iv = b.iv := rfl
@[simp] theorem performSchedule_table (b : Block) : (performSchedule b).table = b.scheduledTable := by rw [performSchedule]
@[simp] theorem performSchedule_data (b : Block) : (performSchedule b).data = b.data := rfl
@[simp] theorem performSchedule_work (b : Block) : (performSchedule b).work = b.work := rfl
@[simp] theorem performSchedule_ci (b : Block) : (performSchedule b).ci = b.ci := rfl
@[simp] theorem performSchedule_cj (b : Block) : (performSchedule b).cj = b.cj := rfl
@[simp] theorem performSchedule_csa (b : Block) : (performSchedule b).csa = b.csa := rfl
@[simp] theorem performSchedule_csb (b : Block) : (performSchedule b).csb = b.csb := rfl
@[simp] theorem performSchedule_dataCap (b : Block) : (performSchedule b).dataCap = b.dataCap := rfl
@[simp] theorem performSchedule_base (b : Block) : (performSchedule b).base = b.base := rfl
@[simp] theorem performSchedule_toParameters (b : Block) : (performSchedule b).toParameters = b.toParameters := rfl
@[simp] theorem performSchedule_epoch (b : Block) : (performSchedule b).epoch = b.epoch := rfl

@[simp] theorem performCrypt_seq (b : Block) : (performCrypt b).seq = b.seq := rfl
@[simp] theorem performCrypt_done (b : Block) : (performCrypt b).done = b.done := rfl
@[simp] theorem performCrypt_err (b : Block) : (performCrypt b).err = b.err := rfl
@[simp] theorem performCrypt_tv (b : Block) : (performCrypt b).tv = b.tv := rfl
@[simp] theorem performCrypt_ctx (b : Block) : (performCrypt b).ctx = .std := rfl
@[simp] theorem performCrypt_errcode (b : Block) : (performCrypt b).errcode = b.errcode := rfl
@[simp] theorem performCrypt_doneIe (b : Block) : (performCrypt b).doneIe = b.doneIe := rfl
@[simp] theorem performCrypt_errIe (b : Block) : (performCrypt b).errIe = b.errIe := rfl
@[simp] theorem performCrypt_keyLen (b : Block) : (performCrypt b).keyLen = b.keyLen := rfl
@[simp] theorem performCrypt_ivLen (b : Block) : (performCrypt b).ivLen = b.ivLen := rfl
@[simp] theorem performCrypt_counter (b : Block) : (performCrypt b).counter = b.counter := rfl
@[simp] theorem performCrypt_nonce (b : Block) : (performCrypt b).nonce = b.nonce := rfl
@[simp] theorem performCrypt_dataLen (b : Block) : (performCrypt b).dataLen = b.dataLen := rfl
@[simp] theorem performCrypt_selIn (b : Block) : (performCrypt b).selIn = b.selIn := rfl
@[simp] theorem performCrypt_selPrev (b : Block) : (performCrypt b).selPrev = b.selPrev := rfl
@[simp] theorem performCrypt_selOut (b : Block) : (performCrypt b).selOut = b.selOut := rfl
@[simp] theorem performCrypt_key (b : Block) : (performCrypt b).key = b.key := rfl
@[simp] theorem performCrypt_iv (b : Block) : (performCrypt b).iv = b.iv := rfl
@[simp] theorem performCrypt_table (b : Block) : (performCrypt b).table = b.table := rfl
@[simp] theorem performCrypt_data (b : Block) : (performCrypt b).data = b.cryptStream.data := rfl
@[simp] theorem performCrypt_work (b : Block) : (performCrypt b).work = b.cryptStream.gen.arr := rfl
@[simp] theorem performCrypt_ci (b : Block) : (performCrypt b).ci = b.cryptStream.gen.i := rfl
@[simp] theorem performCrypt_cj (b : Block) : (performCrypt b).cj = b.cryptStream.gen.j := rfl
@[simp] theorem performCrypt_csa (b : Block) : (performCrypt b).csa = b.cryptStrideA := rfl
@[simp] theorem performCrypt_csb (b : Block) : (performCrypt b).csb = b.cryptStrideB := rfl
@[simp] theorem performCrypt_dataCap (b : Block) : (performCrypt b).dataCap = b.dataCap := rfl
@[simp] theorem performCrypt_base (b : Block) : (performCrypt b).base = b.base := rfl
@[simp] theorem performCrypt_toParameters (b : Block) : (performCrypt b).toParameters = b.toParameters := rfl
@[simp] theorem performCrypt_epoch (b : Block) : (performCrypt b).epoch = b.epoch := rfl

@[simp] theorem performCryptCont_seq (b : Block) : (performCryptCont b).seq = b.seq := rfl
@[simp] theorem performCryptCont_done (b : Block) : (performCryptCont b).done = b.done := rfl
@[simp] theorem performCryptCont_err (b : Block) : (performCryptCont b).err = b.err := rfl
@[simp] theorem performCryptCont_tv (b : Block) : (performCryptCont b).tv = b.tv := rfl
@[simp] theorem performCryptCont_ctx (b : Block) : (performCryptCont b).ctx = b.ctx := rfl
@[simp] theorem performCryptCont_errcode (b : Block) : (performCryptCont b).errcode = b.errcode := rfl
@[simp] theorem performCryptCont_doneIe (b : Block) : (performCryptCont b).doneIe = b.doneIe := rfl
@[simp] theorem performCryptCont_errIe (b : Block) : (performCryptCont b).errIe = b.errIe := rfl
@[simp] theorem performCryptCont_keyLen (b : Block) : (performCryptCont b).keyLen = b.keyLen := rfl
@[simp] theorem performCryptCont_ivLen (b : Block) : (performCryptCont b).ivLen = b.ivLen := rfl
@[simp] theorem performCryptCont_counter (b : Block) : (performCryptCont b).counter = b.counter := rfl
@[simp] theorem performCryptCont_nonce (b : Block) : (performCryptCont b).nonce = b.nonce := rfl
@[simp] theorem performCryptCont_dataLen (b : Block) : (performCryptCont b).dataLen = b.dataLen := rfl
@[simp] theorem performCryptCont_selIn (b : Block) : (performCryptCont b).selIn = b.selIn := rfl
@[simp] theorem performCryptCont_selPrev (b : Block) : (performCryptCont b).selPrev = b.selPrev := rfl
@[simp] theorem performCryptCont_selOut (b : Block) : (performCryptCont b).selOut = b.selOut := rfl
@[simp] theorem performCryptCont_key (b : Block) : (performCryptCont b).key = b.key := rfl
@[simp] theorem performCryptCont_iv (b : Block) : (performCryptCont b).iv = b.iv := rfl
@[simp] theorem performCryptCont_table (b : Block) : (performCryptCont b).table = b.table := rfl
@[simp] theorem performCryptCont_data (b : Block) : (performCryptCont b).data = b.cryptContStream.data := rfl
@[simp] theorem performCryptCont_work (b : Block) : (performCryptCont b).work = b.cryptContStream.gen.arr := rfl
@[simp] theorem performCryptCont_ci (b : Block) : (performCryptCont b).ci = b.cryptContStream.gen.i := rfl
@[simp] theorem performCryptCont_cj (b : Block) : (performCryptCont b).cj = b.cryptContStream.gen.j := rfl
@[simp] theorem performCryptCont_csa (b : Block) : (performCryptCont b).csa = b.csa := rfl
@[simp] theorem performCryptCont_csb (b : Block) : (performCryptCont b).csb = b.csb := rfl
@[simp] theorem performCryptCont_dataCap (b : Block) : (performCryptCont b).dataCap = b.dataCap := rfl
@[simp] theorem performCryptCont_base (b : Block) : (performCryptCont b).base = b.base := rfl
@[simp] theorem performCryptCont_toParameters (b : Block) : (performCryptCont b).toParameters = b.toParameters := rfl
@[simp] theorem performCryptCont_epoch (b : Block) : (performCryptCont b).epoch = b.epoch := rfl

@[simp] theorem performScrypt_seq (b : Block) : (performScrypt b).seq = b.seq := rfl
@[simp] theorem performScrypt_done (b : Block) : (performScrypt b).done = b.done := rfl
@[simp] theorem performScrypt_err (b : Block) : (performScrypt b).err = b.err := rfl
@[simp] theorem performScrypt_tv (b : Block) : (performScrypt b).tv = b.tv := rfl
@[simp] theorem performScrypt_ctx (b : Block) : (performScrypt b).ctx = .simple := rfl
@[simp] theorem performScrypt_errcode (b : Block) : (performScrypt b).errcode = b.errcode := rfl
@[simp] theorem performScrypt_doneIe (b : Block) : (performScrypt b).doneIe = b.doneIe := rfl
@[simp] theorem performScrypt_errIe (b : Block) : (performScrypt b).errIe = b.errIe := rfl
@[simp] theorem performScrypt_keyLen (b : Block) : (performScrypt b).keyLen = b.keyLen := rfl
@[simp] theorem performScrypt_ivLen (b : Block) : (performScrypt b).ivLen = b.ivLen := rfl
@[simp] theorem performScrypt_counter (b : Block) : (performScrypt b).counter = b.counter := rfl
@[simp] theorem performScrypt_nonce (b : Block) : (performScrypt b).nonce = b.nonce := rfl
@[simp] theorem performScrypt_dataLen (b : Block) : (performScrypt b).dataLen = b.dataLen := rfl
@[simp] theorem performScrypt_selIn (b : Block) : (performScrypt b).selIn = b.selIn := rfl
@[simp] theorem performScrypt_selPrev (b : Block) : (performScrypt b).selPrev = b.selPrev := rfl
@[simp] theorem performScrypt_selOut (b : Block) : (performScrypt b).selOut = b.selOut := rfl
@[simp] theorem performScrypt_key (b : Block) : (performScrypt b).key = b.key := rfl
@[simp] theorem performScrypt_iv (b : Block) : (performScrypt b).iv = b.iv := rfl
@[simp] theorem performScrypt_table (b : Block) : (performScrypt b).table = b.scryptStream.gen.arr := rfl
@[simp] theorem performScrypt_data (b : Block) : (performScrypt b).data = b.scryptStream.data := rfl
@[simp] theorem performScrypt_work (b : Block) : (performScrypt b).work = b.work := rfl
@[simp] theorem performScrypt_ci (b : Block) : (performScrypt b).ci = b.scryptStream.gen.i := rfl
@[simp] theorem performScrypt_cj (b : Block) : (performScrypt b).cj = b.scryptStream.gen.j := rfl
@[simp] theorem performScrypt_csa (b : Block) : (performScrypt b).csa = b.scryptStrideA := rfl
@[simp] theorem performScrypt_csb (b : Block) : (performScrypt b).csb = b.scryptStrideB := rfl
@[simp] theorem performScrypt_dataCap (b : Block) : (performScrypt b).dataCap = b.dataCap := rfl
@[simp] theorem performScrypt_base (b : Block) : (performScrypt b).base = b.base := rfl
@[simp] theorem performScrypt_toParameters (b : Block) : (performScrypt b).toParameters = b.toParameters := rfl
@[simp] theorem performScrypt_epoch (b : Block) : (performScrypt b).epoch = b.epoch := rfl

@[simp] theorem performScryptCont_seq (b : Block) : (performScryptCont b).seq = b.seq := rfl
@[simp] theorem performScryptCont_done (b : Block) : (performScryptCont b).done = b.done := rfl
@[simp] theorem performScryptCont_err (b : Block) : (performScryptCont b).err = b.err := rfl
@[simp] theorem performScryptCont_tv (b : Block) : (performScryptCont b).tv = b.tv := rfl
@[simp] theorem performScryptCont_ctx (b : Block) : (performScryptCont b).ctx = b.ctx := rfl
@[simp] theorem performScryptCont_errcode (b : Block) : (performScryptCont b).errcode = b.errcode := rfl
@[simp] theorem performScryptCont_doneIe (b : Block) : (performScryptCont b).doneIe = b.doneIe := rfl
@[simp] theorem performScryptCont_errIe (b : Block) : (performScryptCont b).errIe = b.errIe := rfl
@[simp] theorem performScryptCont_keyLen (b : Block) : (performScryptCont b).keyLen = b.keyLen := rfl
@[simp] theorem performScryptCont_ivLen (b : Block) : (performScryptCont b).ivLen = b.ivLen := rfl
@[simp] theorem performScryptCont_counter (b : Block) : (performScryptCont b).counter = b.counter := rfl
@[simp] theorem performScryptCont_nonce (b : Block) : (performScryptCont b).nonce = b.nonce := rfl
@[simp] theorem performScryptCont_dataLen (b : Block) : (performScryptCont b).dataLen = b.dataLen := rfl
@[simp] theorem performScryptCont_selIn (b : Block) : (performScryptCont b).selIn = b.selIn := rfl
@[simp] theorem performScryptCont_selPrev (b : Block) : (performScryptCont b).selPrev = b.selPrev := rfl
@[simp] theorem performScryptCont_selOut (b : Block) : (performScryptCont b).selOut = b.selOut := rfl
@[simp] theorem performScryptCont_key (b : Block) : (performScryptCont b).key = b.key := rfl
@[simp] theorem performScryptCont_iv (b : Block) : (performScryptCont b).iv = b.iv := rfl
@[simp] theorem performScryptCont_table (b : Block) : (performScryptCont b).table = b.scryptContStream.gen.arr := rfl
@[simp] theorem performScryptCont_data (b : Block) : (performScryptCont b).data = b.scryptContStream.data := rfl
@[simp] theorem performScryptCont_work (b : Block) : (performScryptCont b).work = b.work := rfl
@[simp] theorem performScryptCont_ci (b : Block) : (performScryptCont b).ci = b.scryptContStream.gen.i := rfl
@[simp] theorem performScryptCont_cj (b : Block) : (performScryptCont b).cj = b.scryptContStream.gen.j := rfl
@[simp] theorem performScryptCont_csa (b : Block) : (performScryptCont b).csa = b.csa := rfl
@[simp] theorem performScryptCont_csb (b : Block) : (performScryptCont b).csb = b.csb := rfl
@[simp] theorem performScryptCont_dataCap (b : Block) : (performScryptCont b).dataCap = b.dataCap := rfl
@[simp] theorem performScryptCont_base (b : Block) : (performScryptCont b).base = b.base := rfl
@[simp] theorem performScryptCont_toParameters (b : Block) : (performScryptCont b).toParameters = b.toParameters := rfl
@[simp] theorem performScryptCont_epoch (b : Block) : (performScryptCont b).epoch = b.epoch := rfl

@[simp] theorem Block.reset_seq (p : Parameters) (epoch : Nat) : (Block.reset p epoch).seq = .idle := rfl
@[simp] theorem Block.reset_done (p : Parameters) (epoch : Nat) : (Block.reset p epoch).done = false := rfl
@[simp] theorem Block.reset_err (p : Parameters) (epoch : Nat) : (Block.reset p epoch).err = false := rfl
@[simp] theorem Block.reset_tv (p : Parameters) (epoch : Nat) : (Block.reset p epoch).tv = false := rfl
@[simp] theorem Block.reset_ctx (p : Parameters) (epoch : Nat) : (Block.reset p epoch).ctx = .none := rfl
@[simp] theorem Block.reset_errcode (p : Parameters) (epoch : Nat) : (Block.reset p epoch).errcode = 0 := rfl
@[simp] theorem Block.reset_doneIe (p : Parameters) (epoch : Nat) : (Block.reset p epoch).doneIe = false := rfl
@[simp] theorem Block.reset_errIe (p : Parameters) (epoch : Nat) : (Block.reset p epoch).errIe = false := rfl
@[simp] theorem Block.reset_keyLen (p : Parameters) (epoch : Nat) : (Block.reset p epoch).keyLen = 0 := rfl
@[simp] theorem Block.reset_ivLen (p : Parameters) (epoch : Nat) : (Block.reset p epoch).ivLen = 0 := rfl
@[simp] theorem Block.reset_counter (p : Parameters) (epoch : Nat) : (Block.reset p epoch).counter = 0 := rfl
@[simp] theorem Block.reset_nonce (p : Parameters) (epoch : Nat) : (Block.reset p epoch).nonce = 0 := rfl
@[simp] theorem Block.reset_dataLen (p : Parameters) (epoch : Nat) : (Block.reset p epoch).dataLen = 0 := rfl
@[simp] theorem Block.reset_selIn (p : Parameters) (epoch : Nat) : (Block.reset p epoch).selIn = 0 := rfl
@[simp] theorem Block.reset_selPrev (p : Parameters) (epoch : Nat) : (Block.reset p epoch).selPrev = 0 := rfl
@[simp] theorem Block.reset_selOut (p : Parameters) (epoch : Nat) : (Block.reset p epoch).selOut = 0 := rfl
@[simp] theorem Block.reset_key (p : Parameters) (epoch : Nat) : (Block.reset p epoch).key = [] := rfl
@[simp] theorem Block.reset_iv (p : Parameters) (epoch : Nat) : (Block.reset p epoch).iv = [] := rfl
@[simp] theorem Block.reset_table (p : Parameters) (epoch : Nat) : (Block.reset p epoch).table = [] := rfl
@[simp] theorem Block.reset_data (p : Parameters) (epoch : Nat) : (Block.reset p epoch).data = [] := rfl
@[simp] theorem Block.reset_work (p : Parameters) (epoch : Nat) : (Block.reset p epoch).work = [] := rfl
@[simp] theorem Block.reset_ci (p : Parameters) (epoch : Nat) : (Block.reset p epoch).ci = 0 := rfl
@[simp] theorem Block.reset_cj (p : Parameters) (epoch : Nat) : (Block.reset p epoch).cj = 0 := rfl
@[simp] theorem Block.reset_csa (p : Parameters) (epoch : Nat) : (Block.reset p epoch).csa = 0 := rfl
@[simp] theorem Block.reset_csb (p : Parameters) (epoch : Nat) : (Block.reset p epoch).csb = 0 := rfl
@[simp] theorem Block.reset_dataCap (p : Parameters) (epoch : Nat) : (Block.reset p epoch).dataCap = p.dataCap := rfl
@[simp] theorem Block.reset_base (p : Parameters) (epoch : Nat) : (Block.reset p epoch).base = p.base := rfl
@[simp] theorem Block.reset_toParameters (p : Parameters) (epoch : Nat) : (Block.reset p epoch).toParameters = p := rfl
@[simp] theorem Block.reset_epoch (p : Parameters) (epoch : Nat) : (Block.reset p epoch).epoch = epoch := rfl

@[simp] theorem Block.reset_arr (p : Parameters) (epoch : Nat) (a : Arr) : (Block.reset p epoch).arr a = [] := by cases a <;> rfl

@[simp] theorem State.commandTaken_schedule (s : State) : s.commandTaken.schedule = s.schedule := rfl
@[simp] theorem State.commandTaken_block (s : State) : s.commandTaken.block = s.block := rfl
@[simp] theorem State.commandTaken_script (s : State) : s.commandTaken.master.script = s.master.script := rfl
@[simp] theorem State.commandTaken_record (s : State) : s.commandTaken.master.record = s.master.record := rfl
@[simp] theorem State.resetMove_schedule (s : State) : s.resetMove.schedule = s.schedule := rfl
@[simp] theorem State.resetMove_master (s : State) : s.resetMove.master = s.master := rfl
@[simp] theorem State.resetMove_block (s : State) :
    s.resetMove.block = Block.reset s.block.toParameters (s.block.epoch + 1) := rfl

end Sys2Proof.Machine
end

