-- ==== Sys2Proof/Laws/Issue.lean ====
section
/-! SUPPORT. What error capture, command issue and the run of a command can do (60_exceptions R118, R120, 70_reset
R140). -/

namespace Sys2Proof.Machine

@[simp] theorem Block.isBusy_idle {b : Block} (h : b.seq = .idle) : b.isBusy = false := by simp [Block.isBusy, h]

@[simp] theorem Block.isBusy_busy {b : Block} {i : Instr} (h : b.seq = .busy i) : b.isBusy = true := by
  simp [Block.isBusy, h]

theorem Block.isBusy_iff (b : Block) : b.isBusy = true ↔ ∃ i, b.seq = .busy i := by
  cases h : b.seq <;> simp [Block.isBusy, h]

theorem Block.not_isBusy_iff (b : Block) : b.isBusy = false ↔ b.seq = .idle := by
  cases h : b.seq <;> simp [Block.isBusy, h]

@[simp] theorem Block.isBusy_capture (b : Block) (c : ErrCode) : (b.capture c).isBusy = b.isBusy := rfl
@[simp] theorem Block.isBusy_clearDone (b : Block) : b.clearDone.isBusy = b.isBusy := rfl
@[simp] theorem Block.isBusy_complete (b : Block) : b.complete.isBusy = false := rfl
@[simp] theorem Block.isBusy_writeStatus (b : Block) (v : Word) : (b.writeStatus v).isBusy = b.isBusy := rfl
@[simp] theorem Block.isBusy_writeInten (b : Block) (v : Word) : (b.writeInten v).isBusy = b.isBusy := rfl

@[simp] theorem Block.arr_capture (b : Block) (c : ErrCode) (a : Arr) : (b.capture c).arr a = b.arr a := by
  cases a <;> rfl
@[simp] theorem Block.arr_clearDone (b : Block) (a : Arr) : b.clearDone.arr a = b.arr a := by cases a <;> rfl
@[simp] theorem Block.arr_complete (b : Block) (a : Arr) : b.complete.arr a = b.arr a := by cases a <;> rfl

/-- The checks of steps 4 to 7 read registers and STATUS only, and not DONE, ERR or SEQ (60_exceptions R120). -/
@[simp] theorem Block.issueError_clearDone (b : Block) (i : Instr) : b.clearDone.issueError i = b.issueError i := by
  cases i <;> rfl

@[simp] theorem Block.issueError_capture (b : Block) (c : ErrCode) (i : Instr) :
    (b.capture c).issueError i = b.issueError i := by
  cases i <;> rfl

/-- A command whose checks pass is accepted. -/
theorem Block.accept_of_none {b : Block} {i : Instr} (h : b.issueError i = none) :
    b.accept i = { b with seq := .busy i } := by simp [Block.accept, h]

/-- A command with a failing check is rejected with its code. -/
theorem Block.accept_of_some {b : Block} {i : Instr} {c : ErrCode} (h : b.issueError i = some c) :
    b.accept i = b.capture c := by simp [Block.accept, h]

/-- All that step 4 to 8 of the issue can do. -/
theorem Block.accept_cases (b : Block) (i : Instr) :
    (b.issueError i = none ∧ b.accept i = { b with seq := .busy i }) ∨
    (∃ c, b.issueError i = some c ∧ b.accept i = b.capture c) := by
  cases h : b.issueError i with
  | none => exact .inl ⟨rfl, Block.accept_of_none h⟩
  | some c => exact .inr ⟨c, rfl, Block.accept_of_some h⟩

/-- All that presenting a word can do (60_exceptions R120). -/
theorem Block.issue_cases (b : Block) (w : Word) :
    (b.isBusy = true ∧ b.issue w = b.capture .busyCmd) ∨
    (b.seq = .idle ∧ (∃ r, decode w = .refused r) ∧ b.issue w = b.clearDone.capture .illegalCmd) ∨
    (b.seq = .idle ∧ ∃ i c, decode w = .command i ∧ b.issueError i = some c ∧ b.issue w = b.clearDone.capture c) ∨
    (b.seq = .idle ∧ ∃ i, decode w = .command i ∧ b.issueError i = none ∧
      b.issue w = { b.clearDone with seq := .busy i }) := by
  cases hs : b.seq with
  | busy i => exact .inl ⟨by simp [hs], by simp [Block.issue, hs]⟩
  | idle =>
    right
    cases hd : decode w with
    | refused r => exact .inl ⟨rfl, ⟨r, rfl⟩, by simp [Block.issue, hs, hd]⟩
    | command i =>
      right
      rcases Block.accept_cases b.clearDone i with ⟨h, e⟩ | ⟨c, h, e⟩
      · exact .inr ⟨rfl, i, rfl, by simpa using h, by simp [Block.issue, hs, hd, e]⟩
      · exact .inl ⟨rfl, i, c, rfl, by simpa using h, by simp [Block.issue, hs, hd, e]⟩

/-- A pending command is performed and completes (70_reset R140). -/
theorem Block.runCommand_of_busy {b : Block} {j : Instr} (h : b.seq = .busy j) (i : Instr) (perform : Block → Block) :
    b.runCommand i perform = (perform b).complete := by simp [Block.runCommand, h]

/-- A command presented to an idle block whose checks pass is accepted, performed and completes. -/
theorem Block.runCommand_of_accepted {b : Block} {i : Instr} (hs : b.seq = .idle) (h : b.issueError i = none)
    (perform : Block → Block) :
    b.runCommand i perform = (perform { b.clearDone with seq := .busy i }).complete := by
  have e := Block.accept_of_none (b := b.clearDone) (i := i) (by simpa using h)
  simp [Block.runCommand, hs, e, Block.isBusy]

/-- A command presented to an idle block with a failing check is rejected (60_exceptions R121). -/
theorem Block.runCommand_of_rejected {b : Block} {i : Instr} {c : ErrCode} (hs : b.seq = .idle)
    (h : b.issueError i = some c) (perform : Block → Block) :
    b.runCommand i perform = b.clearDone.capture c := by
  have e := Block.accept_of_some (b := b.clearDone) (i := i) (by simpa using h)
  simp [Block.runCommand, hs, e, Block.isBusy]

/-- All that the run of a command can do. -/
theorem Block.runCommand_cases (b : Block) (i : Instr) (perform : Block → Block) :
    (b.isBusy = true ∧ b.runCommand i perform = (perform b).complete) ∨
    (b.seq = .idle ∧ b.issueError i = none ∧
      b.runCommand i perform = (perform { b.clearDone with seq := .busy i }).complete) ∨
    (b.seq = .idle ∧ ∃ c, b.issueError i = some c ∧ b.runCommand i perform = b.clearDone.capture c) := by
  cases hs : b.seq with
  | busy j => exact .inl ⟨by simp [hs], Block.runCommand_of_busy hs i perform⟩
  | idle =>
    right
    cases h : b.issueError i with
    | none => exact .inl ⟨rfl, rfl, Block.runCommand_of_accepted hs h perform⟩
    | some c => exact .inr ⟨rfl, c, rfl, Block.runCommand_of_rejected hs h perform⟩

/-- The engine's pseudocode of each command. -/
def performOf : Instr → Block → Block
  | .select     => performSelect
  | .schedule   => performSchedule
  | .crypt      => performCrypt
  | .cryptCont  => performCryptCont
  | .scrypt     => performScrypt
  | .scryptCont => performScryptCont
  | .tcommit    => performTcommit

/-- Every command's meaning is the run of its pseudocode: `exec` always answers a next state, and only the block
changes. -/
theorem exec_eq (i : Instr) (s : State) :
    exec i s = .next { s with block := s.block.runCommand i (performOf i) } := by
  cases i <;> rfl

/-- Both outcomes of TCOMMIT (44_table_management R113). -/
theorem performTcommit_cases (b : Block) :
    (b.tableIsPermutation = true ∧ performTcommit b = { b with tv := true }) ∨
    (b.tableIsPermutation = false ∧ performTcommit b = b.capture .notPerm) := by
  cases h : b.tableIsPermutation
  · exact .inr ⟨rfl, by simp [performTcommit, h]⟩
  · exact .inl ⟨rfl, by simp [performTcommit, h]⟩

/-- No command changes the parameters, the draws, or the registers and arrays that only the host writes. -/
theorem performOf_hostOwned (i : Instr) (b : Block) :
    (performOf i b).toParameters = b.toParameters ∧ (performOf i b).epoch = b.epoch ∧ (performOf i b).seq = b.seq ∧
    (performOf i b).key = b.key ∧ (performOf i b).iv = b.iv ∧ (performOf i b).keyLen = b.keyLen ∧
    (performOf i b).ivLen = b.ivLen ∧ (performOf i b).counter = b.counter ∧ (performOf i b).nonce = b.nonce ∧
    (performOf i b).dataLen = b.dataLen ∧ (performOf i b).selIn = b.selIn ∧ (performOf i b).selPrev = b.selPrev ∧
    (performOf i b).doneIe = b.doneIe ∧ (performOf i b).errIe = b.errIe := by
  cases i
  case tcommit =>
    rcases performTcommit_cases b with ⟨-, h⟩ | ⟨-, h⟩ <;> simp [performOf, h]
  all_goals simp [performOf]

end Sys2Proof.Machine
end

