-- ==== Sys2Proof/Laws/Loops.lean ====
section
/-! SUPPORT. The bounded loop `forRange` (00_scope R9). -/

namespace Sys2Proof.Machine

@[simp] theorem forRange_zero {α : Type} (f : Nat → α → α) (a : α) : forRange 0 f a = a := rfl

theorem forRange_succ {α : Type} (n : Nat) (f : Nat → α → α) (a : α) :
    forRange (n + 1) f a = f n (forRange n f a) := rfl

/-- A property that holds at the start and that each iteration keeps holds at the end. -/
theorem forRange_induct {α : Type} (P : Nat → α → Prop) (f : Nat → α → α) (a : α) (N : Nat)
    (start : P 0 a) (next : ∀ n x, n < N → P n x → P (n + 1) (f n x)) : P N (forRange N f a) := by
  have upTo : ∀ n, n ≤ N → P n (forRange n f a) := by
    intro n
    induction n with
    | zero => intro _; exact start
    | succ n ih => intro h; exact next n _ h (ih (Nat.le_of_succ_le h))
  exact upTo N (Nat.le_refl N)

/-- A loop of `a + b` iterations is one of `a` followed by one of `b`. -/
theorem forRange_add {α : Type} (a b : Nat) (f : Nat → α → α) (x : α) :
    forRange (a + b) f x = forRange b (fun n => f (a + n)) (forRange a f x) := by
  induction b with
  | zero => rfl
  | succ b ih => rw [← Nat.add_assoc, forRange_succ, forRange_succ, ih]

/-- Bodies that agree on every iteration give the same loop. -/
theorem forRange_congr {α : Type} {f g : Nat → α → α} (N : Nat) (a : α)
    (h : ∀ n x, n < N → f n x = g n x) : forRange N f a = forRange N g a := by
  induction N with
  | zero => rfl
  | succ N ih =>
    rw [forRange_succ, forRange_succ, ih fun n x hn => h n x (Nat.lt_succ_of_lt hn), h N _ (Nat.lt_succ_self N)]

/-- A relation that holds at the start and that each pair of iterations keeps holds at the end: how two loops are
compared. -/
theorem forRange_rel {α β : Type} (R : α → β → Prop) (f : Nat → α → α) (g : Nat → β → β) (a : α) (b : β) (N : Nat)
    (start : R a b) (next : ∀ n x y, n < N → R x y → R (f n x) (g n y)) :
    R (forRange N f a) (forRange N g b) := by
  induction N with
  | zero => exact start
  | succ N ih =>
    exact next N _ _ (Nat.lt_succ_self N) (ih fun n x y hn => next n x y (Nat.lt_succ_of_lt hn))

end Sys2Proof.Machine
end

