-- ==== Sys2Proof/Laws/Memory.lean ====
section
/-! SUPPORT. Byte arrays: a read after a write, the canonical form, swaps, and arrays as parts of the block. -/

namespace Sys2Proof.Machine

@[simp] theorem Memory.get_nil (k : Nat) : Memory.get [] k = none := rfl

theorem Memory.get_cons (i : Nat) (v : Byte) (m : Memory) (k : Nat) :
    Memory.get ((i, v) :: m) k = if k = i then some v else m.get k := rfl

/-- What a write does to every index. -/
theorem Memory.get_put (m : Memory) (k : Nat) (v : Byte) (x : Nat) :
    (m.put k v).get x = if x = k then some v else m.get x := by
  induction m with
  | nil => rfl
  | cons c m ih =>
    obtain ⟨i, w⟩ := c
    simp only [Memory.put]
    split
    · rfl
    · split
      · subst k
        simp only [Memory.get_cons]
        split <;> rfl
      · simp only [Memory.get_cons, ih]
        grind

@[simp] theorem Memory.get_put_same (m : Memory) (k : Nat) (v : Byte) : (m.put k v).get k = some v := by
  simp [Memory.get_put]

theorem Memory.get_put_other (m : Memory) (k : Nat) (v : Byte) {x : Nat} (h : x ≠ k) :
    (m.put k v).get x = m.get x := by simp [Memory.get_put, h]

/-- What a write does to every read. -/
theorem Memory.read_put (m : Memory) (draw : Nat → Byte) (k : Nat) (v : Byte) (x : Nat) :
    (m.put k v).read draw x = if x = k then v else m.read draw x := by
  simp only [Memory.read, Memory.get_put]
  split <;> rfl

@[simp] theorem Memory.read_put_same (m : Memory) (draw : Nat → Byte) (k : Nat) (v : Byte) :
    (m.put k v).read draw k = v := by simp [Memory.read_put]

theorem Memory.read_put_other (m : Memory) (draw : Nat → Byte) (k : Nat) (v : Byte) {x : Nat} (h : x ≠ k) :
    (m.put k v).read draw x = m.read draw x := by simp [Memory.read_put, h]

@[simp] theorem Memory.read_nil (draw : Nat → Byte) (k : Nat) : Memory.read [] draw k = draw k := rfl

/-- What a swap does to every read (00_scope R9). -/
theorem Memory.read_swap (m : Memory) (draw : Nat → Byte) (x y k : Nat) :
    (m.swap draw x y).read draw k =
      if k = y then m.read draw x else if k = x then m.read draw y else m.read draw k := by
  simp only [Memory.swap, Memory.read_put]

/-- A swap of an index with itself changes no byte (00_scope R9). -/
@[simp] theorem Memory.read_swap_self (m : Memory) (draw : Nat → Byte) (x k : Nat) :
    (m.swap draw x x).read draw k = m.read draw k := by
  rw [Memory.read_swap]; split <;> simp_all

/-- Every index a write lists is the written one or was listed. -/
theorem Memory.mem_put {m : Memory} {k : Nat} {v : Byte} {c : Host.Cell} (h : c ∈ m.put k v) : c = (k, v) ∨ c ∈ m := by
  induction m with
  | nil => left; simpa [Memory.put] using h
  | cons d m ih =>
    obtain ⟨i, w⟩ := d
    simp only [Memory.put] at h
    split at h
    · simpa using h
    · split at h
      · rcases List.mem_cons.mp h with h | h
        · exact .inl h
        · exact .inr (List.mem_cons_of_mem _ h)
      · rcases List.mem_cons.mp h with h | h
        · exact .inr (h ▸ List.mem_cons_self)
        · exact (ih h).imp id (List.mem_cons_of_mem _)

/-- A write keeps the canonical form. -/
theorem Memory.wf_put {m : Memory} (h : m.wf) (k : Nat) (v : Byte) : (m.put k v).wf := by
  induction m with
  | nil => simp [Memory.put]
  | cons d m ih =>
    obtain ⟨i, w⟩ := d
    have hm := List.pairwise_cons.mp h
    simp only [Memory.put]
    split
    · rename_i hk
      refine List.pairwise_cons.mpr ⟨?_, h⟩
      intro c hc
      rcases List.mem_cons.mp hc with rfl | hc
      · exact hk
      · exact Nat.lt_trans hk (hm.1 c hc)
    · split
      · rename_i hk
        subst hk
        exact List.pairwise_cons.mpr ⟨hm.1, hm.2⟩
      · rename_i h1 h2
        refine List.pairwise_cons.mpr ⟨?_, ih hm.2⟩
        intro c hc
        rcases Memory.mem_put hc with rfl | hc
        · show i < k
          omega
        · exact hm.1 c hc

/-- A write below the size lists no index beyond it. -/
theorem Memory.within_put {m : Memory} {size : Nat} (h : m.within size) {k : Nat} (hk : k < size) (v : Byte) :
    (m.put k v).within size := by
  intro c hc
  rcases Memory.mem_put hc with rfl | hc
  · exact hk
  · exact h c hc

theorem Memory.wf_nil : Memory.wf [] := List.Pairwise.nil

theorem Memory.within_nil (size : Nat) : Memory.within [] size := by intro c hc; cases hc

theorem Memory.wf_swap {m : Memory} (h : m.wf) (draw : Nat → Byte) (x y : Nat) : (m.swap draw x y).wf :=
  Memory.wf_put (Memory.wf_put h _ _) _ _

theorem Memory.within_swap {m : Memory} {size : Nat} (h : m.within size) (draw : Nat → Byte) {x y : Nat}
    (hx : x < size) (hy : y < size) : (m.swap draw x y).within size :=
  Memory.within_put (Memory.within_put h hx _) hy _

/-- An index below every listed one is unlisted. -/
theorem Memory.get_eq_none_of_lt {m : Memory} {k : Nat} (h : ∀ c ∈ m, k < c.1) : m.get k = none := by
  induction m with
  | nil => rfl
  | cons d m ih =>
    obtain ⟨i, w⟩ := d
    have hk : k < i := h (i, w) List.mem_cons_self
    rw [Memory.get_cons, if_neg (by omega), ih fun c hc => h c (List.mem_cons_of_mem _ hc)]

/-- Two arrays in canonical form that list the same bytes are the same data. -/
theorem Memory.ext_of_wf {m n : Memory} (hm : m.wf) (hn : n.wf) (h : ∀ k, m.get k = n.get k) : m = n := by
  induction m generalizing n with
  | nil =>
    cases n with
    | nil => rfl
    | cons d n =>
      have := h d.1
      rw [Memory.get_nil, Memory.get_cons, if_pos rfl] at this
      cases this
  | cons c m ih =>
    obtain ⟨i, v⟩ := c
    cases n with
    | nil =>
      have := h i
      rw [Memory.get_cons, if_pos rfl, Memory.get_nil] at this
      cases this
    | cons d n =>
      obtain ⟨j, w⟩ := d
      have hm' := List.pairwise_cons.mp hm
      have hn' := List.pairwise_cons.mp hn
      have hij : i = j := by
        have h1 := h i
        have h2 := h j
        rw [Memory.get_cons, if_pos rfl, Memory.get_cons] at h1
        rw [Memory.get_cons, Memory.get_cons, if_pos rfl] at h2
        by_contra hne
        rw [if_neg hne] at h1
        rw [if_neg (Ne.symm hne)] at h2
        rcases Nat.lt_or_gt_of_ne hne with hlt | hgt
        · rw [Memory.get_eq_none_of_lt fun c hc => Nat.lt_trans hlt (hn'.1 c hc)] at h1
          cases h1
        · rw [Memory.get_eq_none_of_lt fun c hc => Nat.lt_trans hgt (hm'.1 c hc)] at h2
          cases h2
      subst hij
      have hv : v = w := by
        have := h i
        rw [Memory.get_cons, if_pos rfl, Memory.get_cons, if_pos rfl] at this
        exact Option.some.inj this
      subst hv
      congr 1
      refine ih hm'.2 hn'.2 fun k => ?_
      have hk := h k
      rw [Memory.get_cons, Memory.get_cons] at hk
      by_cases hki : k = i
      · subst hki
        rw [Memory.get_eq_none_of_lt hm'.1, Memory.get_eq_none_of_lt hn'.1]
      · rwa [if_neg hki, if_neg hki] at hk

@[simp] theorem Block.arr_setArr_same (b : Block) (a : Arr) (m : Memory) : (b.setArr a m).arr a = m := by
  cases a <;> rfl

theorem Block.arr_setArr_other (b : Block) {a c : Arr} (m : Memory) (h : c ≠ a) : (b.setArr a m).arr c = b.arr c := by
  cases a <;> cases c <;> first | rfl | exact absurd rfl h

@[simp] theorem Block.epoch_setArr (b : Block) (a : Arr) (m : Memory) : (b.setArr a m).epoch = b.epoch := by
  cases a <;> rfl

@[simp] theorem Block.toParameters_setArr (b : Block) (a : Arr) (m : Memory) :
    (b.setArr a m).toParameters = b.toParameters := by
  cases a <;> rfl

@[simp] theorem Block.dataCap_setArr (b : Block) (a : Arr) (m : Memory) : (b.setArr a m).dataCap = b.dataCap := by
  cases a <;> rfl

@[simp] theorem Block.arrSize_setArr (b : Block) (a c : Arr) (m : Memory) : (b.setArr a m).arrSize c = b.arrSize c := by
  cases a <;> cases c <;> rfl

@[simp] theorem Block.draw_setArr (b : Block) (a c : Arr) (m : Memory) : (b.setArr a m).draw c = b.draw c := by
  cases a <;> rfl

/-- After reset every array is in canonical form: nothing is listed (70_reset R136). -/
theorem Block.reset_arr_wf (p : Parameters) (epoch : Nat) (a : Arr) : ((Block.reset p epoch).arr a).wf := by
  cases a <;> exact Memory.wf_nil

theorem State.reset_arr_wf (a : Arr) : (State.reset.block.arr a).wf := Block.reset_arr_wf _ _ a

/-- What `A[k] <- v` does to every byte of every array. -/
theorem Block.byte_setByte (b : Block) (a c : Arr) (k x : Nat) (v : Byte) :
    (b.setByte a k v).byte c x = if c = a ∧ x = k then v else b.byte c x := by
  by_cases hc : c = a
  · subst hc
    simp only [Block.byte, Block.setByte, Block.arr_setArr_same, Block.draw_setArr, Memory.read_put, true_and]
  · simp only [Block.byte, Block.setByte, Block.draw_setArr, Block.arr_setArr_other b _ hc, hc, false_and, if_false]

end Sys2Proof.Machine
end

