-- ==== Sys2Proof/Laws/Keystream.lean ====
section
/-! SUPPORT. The keystream loop: its generator does not depend on DATA, it splits, and it changes DATA byte by byte
(42_standard_cipher R94, R99, 43_simple_cipher R105). -/

namespace Sys2Proof.Machine

/-- The generator after `n` iterations. -/
def prgaAfter (stride addend : Byte) (draw : Nat → Byte) (p : Prga) (n : Nat) : Prga :=
  forRange n (fun _ => prgaStep stride addend draw) p

theorem prgaAfter_succ (stride addend : Byte) (draw : Nat → Byte) (p : Prga) (n : Nat) :
    prgaAfter stride addend draw p (n + 1) = prgaStep stride addend draw (prgaAfter stride addend draw p n) := rfl

theorem prgaAfter_add (stride addend : Byte) (draw : Nat → Byte) (p : Prga) (a n : Nat) :
    prgaAfter stride addend draw p (a + n) =
      prgaAfter stride addend draw (prgaAfter stride addend draw p a) n := by
  simp only [prgaAfter, forRange_add]

/-- The generator's final state is that of the loop without DATA. -/
theorem applyKeystream_gen (stride addend : Byte) (draw dataDraw : Nat → Byte) (len : Nat) (s : Stream) :
    (applyKeystream stride addend draw dataDraw len s).gen = prgaAfter stride addend draw s.gen len := by
  induction len with
  | zero => rfl
  | succ n ih =>
    rw [prgaAfter_succ, ← ih]
    rfl

/-- What the keystream loop does to every DATA byte. -/
theorem applyKeystream_data (stride addend : Byte) (draw dataDraw : Nat → Byte) (len : Nat) (s : Stream) (n : Nat) :
    (applyKeystream stride addend draw dataDraw len s).data.read dataDraw n =
      if n < len then s.data.read dataDraw n ^^^ keystreamByte draw (prgaAfter stride addend draw s.gen (n + 1))
      else s.data.read dataDraw n := by
  induction len with
  | zero => simp [applyKeystream]
  | succ m ih =>
    have step : applyKeystream stride addend draw dataDraw (m + 1) s =
        applyStep stride addend draw dataDraw m (applyKeystream stride addend draw dataDraw m s) := rfl
    rw [step, applyStep, Memory.read_put, applyKeystream_gen, ← prgaAfter_succ]
    by_cases h : n = m
    · subst h
      rw [if_pos rfl, if_pos (Nat.lt_succ_self n), ih, if_neg (Nat.lt_irrefl n)]
    · rw [if_neg h, ih]
      have : n < m + 1 ↔ n < m := by omega
      simp [this]

/-- The bytes an array holds, by reading. -/
def Memory.Same (draw draw' : Nat → Byte) (m m' : Memory) : Prop := ∀ k, k < 256 → m.read draw k = m'.read draw' k

theorem Memory.Same.swap {draw draw' : Nat → Byte} {m m' : Memory} (h : Memory.Same draw draw' m m') {x y : Nat}
    (hx : x < 256) (hy : y < 256) : Memory.Same draw draw' (m.swap draw x y) (m'.swap draw' x y) := by
  intro k hk
  simp only [Memory.read_swap, h k hk, h x hx, h y hy]

/-- Generators with the same indices over arrays that read the same. -/
def Prga.Same (draw draw' : Nat → Byte) (p q : Prga) : Prop :=
  p.i = q.i ∧ p.j = q.j ∧ Memory.Same draw draw' p.arr q.arr

/-- One iteration depends on the array's bytes only, not on how they are listed. -/
theorem prgaStep_same {draw draw' : Nat → Byte} {p q : Prga} (h : Prga.Same draw draw' p q) (stride addend : Byte) :
    Prga.Same draw draw' (prgaStep stride addend draw p) (prgaStep stride addend draw' q) := by
  obtain ⟨hi, hj, hm⟩ := h
  have hr := hm (q.i + stride).toNat (q.i + stride).isLt
  refine ⟨by simp only [prgaStep, hi], by simp only [prgaStep, hi, hj, hr], ?_⟩
  simp only [prgaStep, hi, hj, hr]
  exact hm.swap (BitVec.isLt _) (BitVec.isLt _)

theorem prgaAfter_same {draw draw' : Nat → Byte} {p q : Prga} (h : Prga.Same draw draw' p q) (stride addend : Byte)
    (n : Nat) : Prga.Same draw draw' (prgaAfter stride addend draw p n) (prgaAfter stride addend draw' q n) :=
  forRange_rel _ _ _ _ _ n h fun _ _ _ _ hxy => prgaStep_same hxy stride addend

theorem keystreamByte_same {draw draw' : Nat → Byte} {p q : Prga} (h : Prga.Same draw draw' p q) :
    keystreamByte draw p = keystreamByte draw' q := by
  obtain ⟨hi, hj, hm⟩ := h
  have read (x : Byte) : p.arr.read draw x.toNat = q.arr.read draw' x.toNat := hm _ x.isLt
  simp only [keystreamByte, hi, hj, read]

/-- The loop keeps every array in canonical form. -/
theorem prgaAfter_wf {stride addend : Byte} {draw : Nat → Byte} {p : Prga} (h : p.arr.wf) (n : Nat) :
    (prgaAfter stride addend draw p n).arr.wf := by
  induction n with
  | zero => exact h
  | succ n ih => exact Memory.wf_swap ih _ _ _

theorem prgaAfter_within {stride addend : Byte} {draw : Nat → Byte} {p : Prga} (h : p.arr.within 256) (n : Nat) :
    (prgaAfter stride addend draw p n).arr.within 256 := by
  induction n with
  | zero => exact h
  | succ n ih => exact Memory.within_swap ih _ (BitVec.isLt _) (BitVec.isLt _)

theorem applyKeystream_data_wf {stride addend : Byte} {draw dataDraw : Nat → Byte} {s : Stream} (h : s.data.wf)
    (len : Nat) : (applyKeystream stride addend draw dataDraw len s).data.wf := by
  induction len with
  | zero => exact h
  | succ n ih => exact Memory.wf_put ih _ _

theorem applyKeystream_data_within {stride addend : Byte} {draw dataDraw : Nat → Byte} {s : Stream} {size : Nat}
    (h : s.data.within size) {len : Nat} (hl : len ≤ size) :
    (applyKeystream stride addend draw dataDraw len s).data.within size := by
  induction len with
  | zero => exact h
  | succ n ih => exact Memory.within_put (ih (by omega)) (by omega) _

/-- Step 1 of CRYPT: WORK reads as TABLE (42_standard_cipher R91). -/
theorem Block.read_workCopy (b : Block) (draw : Nat → Byte) (k : Nat) (hk : k < 256) :
    b.workCopy.read draw k = b.byte .table k := by
  have loop : ∀ n x, x < n → (forRange n (fun k w => w.put k (b.byte .table k)) b.work).read draw x = b.byte .table x := by
    intro n
    induction n with
    | zero => intro x hx; omega
    | succ n ih =>
      intro x hx
      rw [forRange_succ, Memory.read_put]
      split
      · simp_all
      · exact ih x (by omega)
  exact loop 256 k hk

end Sys2Proof.Machine
end

