-- ==== Sys2Proof/Laws/PerInstr.lean ====
section
/-! SUPPORT. What holds of each command as syntax, one lemma a constructor (30_encoding R61 to R63). -/

namespace Sys2Proof.Laws

/-- The command's fields are legal, and its word decodes to it (30_encoding R62, R63). -/
def CommandWord.Statement (i : Instr) : Prop := i.wf = true ∧ decode (encode i) = .command i

theorem CommandWord.select : CommandWord.Statement .select := by unfold CommandWord.Statement; decide
theorem CommandWord.schedule : CommandWord.Statement .schedule := by unfold CommandWord.Statement; decide
theorem CommandWord.crypt : CommandWord.Statement .crypt := by unfold CommandWord.Statement; decide
theorem CommandWord.cryptCont : CommandWord.Statement .cryptCont := by unfold CommandWord.Statement; decide
theorem CommandWord.scrypt : CommandWord.Statement .scrypt := by unfold CommandWord.Statement; decide
theorem CommandWord.scryptCont : CommandWord.Statement .scryptCont := by unfold CommandWord.Statement; decide
theorem CommandWord.tcommit : CommandWord.Statement .tcommit := by unfold CommandWord.Statement; decide

end Sys2Proof.Laws
end

