-- ==== Sys2Proof/Laws/Port.lean ====
section
/-! SUPPORT. What the host port can do: the bytes of a window transaction and all the effects a transaction can have on the
block (20_memory R42 to R51). -/

namespace Sys2Proof.Machine

theorem Block.setArr_setArr (b : Block) (a : Arr) (m n : Memory) : (b.setArr a m).setArr a n = b.setArr a n := by
  cases a <;> rfl

theorem Block.setArr_self (b : Block) (a : Arr) : b.setArr a (b.arr a) = b := by cases a <;> rfl

/-- The array after a window write of `n` bytes at index `k`. -/
def lanesWritten (size k n : Nat) (v : Word) (m : Memory) : Memory :=
  forRange n (fun i acc => if k + i < size then acc.put (k + i) (byteLane i v) else acc) m

/-- A window write changes one array. -/
theorem Block.writeLanes_eq (b : Block) (a : Arr) (k n : Nat) (v : Word) :
    b.writeLanes a k n v = b.setArr a (lanesWritten (b.arrSize a) k n v (b.arr a)) := by
  induction n with
  | zero => exact (b.setArr_self a).symm
  | succ n ih =>
    have unroll : b.writeLanes a k (n + 1) v =
        if k + n < b.arrSize a then (b.writeLanes a k n v).setByte a (k + n) (byteLane n v) else b.writeLanes a k n v :=
      rfl
    have unroll' : lanesWritten (b.arrSize a) k (n + 1) v (b.arr a) =
        if k + n < b.arrSize a then
          (lanesWritten (b.arrSize a) k n v (b.arr a)).put (k + n) (byteLane n v)
        else lanesWritten (b.arrSize a) k n v (b.arr a) := rfl
    rw [unroll, unroll', ih]
    split
    · simp only [Block.setByte, Block.arr_setArr_same, Block.setArr_setArr]
    · rfl

/-- What a window write does to every byte of the array. -/
theorem read_lanesWritten (size k n : Nat) (v : Word) (m : Memory) (draw : Nat → Byte) (x : Nat) :
    (lanesWritten size k n v m).read draw x =
      if k ≤ x ∧ x < k + n ∧ x < size then byteLane (x - k) v else m.read draw x := by
  induction n with
  | zero =>
    have : ¬ (k ≤ x ∧ x < k + 0 ∧ x < size) := by omega
    rw [if_neg this]; rfl
  | succ n ih =>
    have unroll : lanesWritten size k (n + 1) v m =
        if k + n < size then (lanesWritten size k n v m).put (k + n) (byteLane n v) else lanesWritten size k n v m := rfl
    rw [unroll]
    split
    · rename_i hn
      rw [Memory.read_put, ih]
      by_cases hx : x = k + n
      · subst hx
        rw [if_pos rfl, if_pos ⟨by omega, by omega, hn⟩]
        congr 1; omega
      · rw [if_neg hx]
        have : (k ≤ x ∧ x < k + n ∧ x < size) ↔ (k ≤ x ∧ x < k + (n + 1) ∧ x < size) := by omega
        simp only [this]
    · rename_i hn
      rw [ih]
      have : (k ≤ x ∧ x < k + n ∧ x < size) ↔ (k ≤ x ∧ x < k + (n + 1) ∧ x < size) := by omega
      simp only [this]

theorem lanesWritten_wf {m : Memory} (h : m.wf) (size k n : Nat) (v : Word) : (lanesWritten size k n v m).wf := by
  induction n with
  | zero => exact h
  | succ n ih =>
    simp only [lanesWritten, forRange_succ]
    split
    · exact Memory.wf_put ih _ _
    · exact ih

theorem lanesWritten_within {m : Memory} {size : Nat} (h : m.within size) (k n : Nat) (v : Word) :
    (lanesWritten size k n v m).within size := by
  induction n with
  | zero => exact h
  | succ n ih =>
    simp only [lanesWritten, forRange_succ]
    split
    · rename_i hk
      exact Memory.within_put ih hk _
    · exact ih

/-- What a window write does to every byte of every array (20_memory R47). -/
theorem Block.byte_writeLanes (b : Block) (a c : Arr) (k n : Nat) (v : Word) (x : Nat) :
    (b.writeLanes a k n v).byte c x =
      if c = a ∧ k ≤ x ∧ x < k + n ∧ x < b.arrSize a then byteLane (x - k) v else b.byte c x := by
  rw [Block.writeLanes_eq]
  by_cases hc : c = a
  · subst hc
    simp only [Block.byte, Block.arr_setArr_same, Block.draw_setArr, read_lanesWritten, true_and]
  · simp only [Block.byte, Block.draw_setArr, Block.arr_setArr_other b _ hc, hc, false_and, if_false]

/-- The block a write to a configuration register stores, by register; none for the other registers. -/
def Block.configured (b : Block) (v : Word) : Reg → Option Block
  | .keyLen  => some { b with keyLen := v }
  | .ivLen   => some { b with ivLen := v }
  | .counter => some { b with counter := v }
  | .nonce   => some { b with nonce := v }
  | .dataLen => some { b with dataLen := v }
  | .selIn   => some { b with selIn := v.setWidth 8 }
  | .selPrev => some { b with selPrev := v }
  | _        => none

/-- All the effects one transaction can have on the block (20_memory R49 to R51). -/
inductive HostEffect (b : Block) : Block → Prop where
  | nothing : HostEffect b b
  | busyAccess (busy : b.isBusy = true) : HostEffect b (b.capture .busyAccess)
  | status (v : Word) : HostEffect b (b.writeStatus v)
  | inten (v : Word) : HostEffect b (b.writeInten v)
  | configure (r : Reg) (v : Word) (b' : Block) (idle : b.seq = .idle) (h : b.configured v r = some b') : HostEffect b b'
  | store (a : Arr) (k n : Nat) (v : Word) (idle : b.seq = .idle) (host : a ≠ .work) : HostEffect b (b.storeWindow a k n v)
  | issue (w : Word) : HostEffect b (b.issue w)

theorem Block.writeReg_effect (b : Block) (v : Word) (r : Reg) : HostEffect b (b.writeReg v r) := by
  have conf (b' : Block) (h : b.configured v r = some b') : HostEffect b (b.configure b') := by
    unfold Block.configure
    cases hb : b.isBusy with
    | true => exact .busyAccess hb
    | false => exact .configure r v b' ((b.not_isBusy_iff).mp hb) h
  cases r
  case cmd => exact .issue v
  case status => exact .status v
  case inten => exact .inten v
  case keyLen => exact conf _ rfl
  case ivLen => exact conf _ rfl
  case counter => exact conf _ rfl
  case nonce => exact conf _ rfl
  case dataLen => exact conf _ rfl
  case selIn => exact conf _ rfl
  case selPrev => exact conf _ rfl
  all_goals exact .nothing

/-- No window of the host space is WORK (10_state R37). -/
theorem regionAt_window {cap off : Nat} {a : Arr} {k : Nat} (h : regionAt cap off = .window a k) : a ≠ .work := by
  rintro rfl
  unfold regionAt at h
  repeat' split at h
  all_goals cases h

/-- One transaction has one of the effects listed. -/
theorem Block.transact_effect (b : Block) (off : Nat) (t : Transaction) : HostEffect b (b.transact off t).1 := by
  cases t with
  | memRead n =>
    simp only [Block.transact, Block.hostRead]
    split
    · cases h : regionAt b.dataCap off with
      | register r => exact .nothing
      | reserved => exact .nothing
      | window a k =>
        dsimp only
        split
        · rename_i hb; exact .busyAccess hb
        · exact .nothing
    · exact .nothing
  | memWrite n v =>
    simp only [Block.transact, Block.hostWrite]
    split
    · cases h : regionAt b.dataCap off with
      | register r => exact b.writeReg_effect v r
      | reserved => exact .nothing
      | window a k =>
        dsimp only
        split
        · rename_i hb; exact .busyAccess hb
        · rename_i hb
          exact .store a k n v ((b.not_isBusy_iff).mp (by simpa using hb)) (regionAt_window h)
    · exact .nothing

/-- While a command is pending a transaction changes STATUS, ERRCODE and INTEN at most (20_memory R51). -/
theorem Block.transact_busy {b : Block} {i : Instr} (h : b.seq = .busy i) (off : Nat) (t : Transaction) :
    ∃ done err errcode doneIe errIe, (b.transact off t).1 =
      { b with done := done, err := err, errcode := errcode, doneIe := doneIe, errIe := errIe } := by
  generalize hb : (b.transact off t).1 = b'
  have e := b.transact_effect off t
  rw [hb] at e
  cases e with
  | nothing => exact ⟨_, _, _, _, _, rfl⟩
  | busyAccess => exact ⟨_, _, _, _, _, rfl⟩
  | status v => exact ⟨_, _, _, _, _, rfl⟩
  | inten v => exact ⟨_, _, _, _, _, rfl⟩
  | configure r v _ idle => rw [h] at idle; cases idle
  | store a k n v idle => rw [h] at idle; cases idle
  | issue w =>
    have e : b.issue w = b.capture .busyCmd := by simp [Block.issue, h]
    exact ⟨_, _, _, _, _, e⟩

end Sys2Proof.Machine
end

