-- ==== Sys2Proof/Laws/Script.lean ====
section
/-! SUPPORT. What the assembly of a host script does with a run of transactions (30_encoding R71, R72). -/

namespace Sys2Proof.Machine

/-- The transactions LOADB, LOADW and DUMPB expand to, by index. -/
theorem spread_eq {α : Type} (off step : Nat) (f : Nat → α → ScriptOp) (xs : List α) :
    spread off step f xs = (xs.mapIdx fun k x => f (off + step * k) x).map ExpandedLine.op := by
  induction xs generalizing off with
  | nil => rfl
  | cons x xs ih =>
    rw [spread, ih, List.mapIdx_cons, List.map_cons]
    congr 2
    apply List.ext_getElem
    · simp
    · intro n h h'
      simp only [List.getElem_mapIdx]
      congr 1
      rw [Nat.mul_add, Nat.mul_one]
      omega

/-- A label after a run of transactions is that many lines further on. -/
theorem findLabel_ops (name : String) (n : Nat) (ops : List ScriptOp) (rest : List ExpandedLine) :
    findLabel name n (ops.map .op ++ rest) = findLabel name (n + ops.length) rest := by
  induction ops generalizing n with
  | nil => rfl
  | cons o ops ih =>
    rw [List.map_cons, List.cons_append, findLabel, ih, List.length_cons]
    · congr 1; omega
    · intro other h; cases h

/-- A run of transactions assembles to itself. -/
theorem assembleFrom_ops (base : Nat) (all : List ExpandedLine) (n : Nat) (ops : List ScriptOp)
    (rest : List ExpandedLine) :
    assembleFrom base all n (ops.map .op ++ rest) =
      (assembleFrom base all (n + ops.length) rest).map (ops ++ ·) := by
  induction ops generalizing n with
  | nil => simp
  | cons o ops ih =>
    rw [List.map_cons, List.cons_append, assembleFrom, ih, List.length_cons, Option.map_map,
      show n + 1 + ops.length = n + (ops.length + 1) by omega]
    rfl

end Sys2Proof.Machine
end

