-- ==== Sys2Proof/Laws/Step.lean ====
section
/-! SUPPORT. All that one step can do (00_scope R11, 70_reset R140, R141). -/

namespace Sys2Proof.Machine

/-- The host's move: nothing after the script's end, a fault outside the aperture, else one transaction. -/
theorem State.hostMove_cases (s : State) :
    (s.master.current = none ∧ s.hostMove = .next s) ∨
    (∃ op, s.master.current = some op ∧ blockOffset s.block.base (scriptAddress op) = none ∧
      s.hostMove = .fault .outsideAperture) ∨
    (∃ op off, s.master.current = some op ∧ blockOffset s.block.base (scriptAddress op) = some off ∧
      s.hostMove = .next
        { s with
          block  := (s.block.transact off (scriptTransaction op)).1
          master := s.master.advance op (s.block.transact off (scriptTransaction op)).2 }) := by
  cases hc : s.master.current with
  | none => exact .inl ⟨rfl, by simp [State.hostMove, hc]⟩
  | some op =>
    right
    cases ho : blockOffset s.block.base (scriptAddress op) with
    | none => exact .inl ⟨op, rfl, ho, by simp [State.hostMove, hc, ho]⟩
    | some off => exact .inr ⟨op, off, rfl, ho, by simp [State.hostMove, hc, ho]⟩

/-- The engine's move: nothing while idle, else the pending command's meaning. -/
theorem State.engineMove_cases (s : State) :
    (s.block.seq = .idle ∧ s.engineMove = .next s) ∨
    (∃ i, s.block.seq = .busy i ∧ s.engineMove = exec i s) := by
  cases h : s.block.seq with
  | idle => exact .inl ⟨rfl, by simp [State.engineMove, h]⟩
  | busy i => exact .inr ⟨i, rfl, by simp [State.engineMove, h]⟩

/-- A prompt move either runs the presented command, or is a host move followed by an engine move. -/
theorem State.promptMove_cases (s : State) :
    (∃ i, s.presentedCommand = some i ∧ s.promptMove = exec i s.commandTaken) ∨
    (s.presentedCommand = none ∧ ∃ s', s.hostMove = .next s' ∧ s.promptMove = s'.engineMove) ∨
    (s.presentedCommand = none ∧ s.hostMove = .fault .outsideAperture ∧ s.promptMove = .fault .outsideAperture) := by
  cases hp : s.presentedCommand with
  | some i => exact .inl ⟨i, rfl, by simp [State.promptMove, hp]⟩
  | none =>
    right
    rcases s.hostMove_cases with ⟨-, h⟩ | ⟨op, -, -, h⟩ | ⟨op, off, -, -, h⟩
    · exact .inl ⟨rfl, _, h, by simp [State.promptMove, hp, h]⟩
    · exact .inr ⟨rfl, h, by simp [State.promptMove, hp, h]⟩
    · exact .inl ⟨rfl, _, h, by simp [State.promptMove, hp, h]⟩

/-- A command is presented to an idle block only (60_exceptions R120, 20_memory R57). -/
theorem State.idle_of_presentedCommand {s : State} {i : Instr} (h : s.presentedCommand = some i) : s.block.seq = .idle := by
  refine (Block.not_isBusy_iff _).mp ?_
  cases hb : s.block.isBusy
  · rfl
  · simp [State.presentedCommand, hb] at h

/-- A property of the block that every host transaction, every run of a presented or pending command and every reset keeps is
kept by every step: the one case split of the step function. -/
theorem step_keeps {P : Block → Prop}
    (host : ∀ b off t, P b → P (b.transact off t).1)
    (run : ∀ b i, b.seq = .idle ∨ b.seq = .busy i → P b → P (b.runCommand i (performOf i)))
    (reset : ∀ b, P b → P (Block.reset b.toParameters (b.epoch + 1)))
    {s t : State} (h : P s.block) (hs : step s = .next t) : P t.block := by
  have hostKeeps (s t : State) (h : P s.block) (hs : s.hostMove = .next t) : P t.block := by
    rcases s.hostMove_cases with ⟨-, e⟩ | ⟨op, -, -, e⟩ | ⟨op, off, -, -, e⟩
    · rw [e] at hs; cases hs; exact h
    · rw [e] at hs; cases hs
    · rw [e] at hs; cases hs; exact host _ _ _ h
  have execKeeps (s t : State) (i : Instr) (hi : s.block.seq = .idle ∨ s.block.seq = .busy i) (h : P s.block)
      (hs : exec i s = .next t) : P t.block := by
    rw [exec_eq] at hs; cases hs; exact run _ _ hi h
  have engineKeeps (s t : State) (h : P s.block) (hs : s.engineMove = .next t) : P t.block := by
    rcases s.engineMove_cases with ⟨-, e⟩ | ⟨i, hi, e⟩
    · rw [e] at hs; cases hs; exact h
    · exact execKeeps s t i (.inr hi) h (e ▸ hs)
  unfold step at hs
  generalize hs' : ({ s with schedule := s.nextMove.2 } : State) = s' at hs
  have h' : P s'.block := by rw [← hs']; exact h
  cases hm : s.nextMove.1 with
  | host => rw [hm] at hs; exact hostKeeps s' t h' hs
  | engine => rw [hm] at hs; exact engineKeeps s' t h' hs
  | reset =>
    rw [hm] at hs
    cases hs
    exact reset _ h'
  | prompt =>
    rw [hm] at hs
    have hs : s'.promptMove = .next t := hs
    rcases s'.promptMove_cases with ⟨i, hp, e⟩ | ⟨-, s'', e, e'⟩ | ⟨-, -, e⟩
    · exact execKeeps s'.commandTaken t i (.inl (State.idle_of_presentedCommand (s := s') hp)) h' (e ▸ hs)
    · exact engineKeeps s'' t (hostKeeps s' s'' h' e) (e' ▸ hs)
    · rw [e] at hs; cases hs

end Sys2Proof.Machine
end

