-- ==== Sys2Proof/Laws/Streams.lean ====
section
/-! SUPPORT. The streams of the four cipher commands as iterations of the generator, and induction over the fixed loops of
the key schedule and of the pre-mixing, so that no later proof unfolds a loop of 256 or 768 iterations. -/

namespace Sys2Proof.Machine

/-- A property that phase A keeps (41_key_schedule R82). -/
theorem fillTable_induct (P : Nat → Fill → Prop) (stride : Byte) (table : Memory) (start : P 0 ⟨0, table⟩)
    (next : ∀ n w, n < 256 → P n w → P (n + 1) (fillStep stride n w)) :
    ∃ w, P 256 w ∧ fillTable stride table = w.table :=
  ⟨_, forRange_induct P (fillStep stride) ⟨0, table⟩ 256 start next, by rw [fillTable]⟩

/-- A property that phase B keeps (41_key_schedule R84). -/
theorem mixTable_induct (P : Nat → Mix → Prop) (stride : Byte) (keyByte draw : Nat → Byte) (table : Memory)
    (start : P 0 ⟨0, 0, table⟩) (next : ∀ n w, n < 768 → P n w → P (n + 1) (mixStep stride keyByte draw w)) :
    ∃ w, P 768 w ∧ mixTable stride keyByte draw table = w.table :=
  ⟨_, forRange_induct P (fun _ => mixStep stride keyByte draw) ⟨0, 0, table⟩ 768 start next, by rw [mixTable]⟩

/-- A property that the pre-mixing keeps (42_standard_cipher R93). -/
theorem Block.premix_induct (b : Block) (P : Nat → Prga → Prop)
    (start : P 0 ⟨byteLane 2 b.counter, byteLane 3 b.counter, b.workCopy⟩)
    (next : ∀ n p, n < 256 → P n p →
      P (n + 1) (premixStep b.cryptStrideA b.ivByte b.ivLength (b.draw .work) p)) :
    P 256 b.premix := by
  rw [Block.premix]
  exact forRange_induct P _ _ 256 start next

/-- Step 1 of CRYPT keeps WORK canonical and within 256 bytes (42_standard_cipher R91). -/
theorem Block.workCopy_wf {b : Block} (h : b.work.wf ∧ b.work.within 256) :
    b.workCopy.wf ∧ b.workCopy.within 256 := by
  rw [Block.workCopy]
  exact forRange_induct (fun _ (w : Memory) => w.wf ∧ w.within 256) _ _ 256 h fun n w hn hw =>
    ⟨Memory.wf_put hw.1 _ _, Memory.within_put hw.2 hn _⟩

theorem Block.cryptStream_gen (b : Block) :
    b.cryptStream.gen =
      prgaAfter b.cryptStrideB 0 (b.draw .work) ⟨byteLane 0 b.counter, byteLane 1 b.counter, b.premix.arr⟩
        b.dataLength := by
  rw [Block.cryptStream, applyKeystream_gen]

theorem Block.cryptContStream_gen (b : Block) :
    b.cryptContStream.gen = prgaAfter b.csb 0 (b.draw .work) ⟨b.ci, b.cj, b.work⟩ b.dataLength := by
  rw [Block.cryptContStream, applyKeystream_gen]

theorem Block.scryptStream_gen (b : Block) :
    b.scryptStream.gen =
      prgaAfter b.scryptStrideA b.scryptStrideB (b.draw .table) ⟨byteLane 0 b.nonce, byteLane 1 b.nonce, b.table⟩
        b.dataLength := by
  rw [Block.scryptStream, applyKeystream_gen]

theorem Block.scryptContStream_gen (b : Block) :
    b.scryptContStream.gen = prgaAfter b.csa b.csb (b.draw .table) ⟨b.ci, b.cj, b.table⟩ b.dataLength := by
  rw [Block.scryptContStream, applyKeystream_gen]

theorem Block.cryptStream_data (b : Block) (n : Nat) :
    b.cryptStream.data.read (b.draw .data) n =
      if n < b.dataLength then
        b.byte .data n ^^^ keystreamByte (b.draw .work)
          (prgaAfter b.cryptStrideB 0 (b.draw .work) ⟨byteLane 0 b.counter, byteLane 1 b.counter, b.premix.arr⟩ (n + 1))
      else b.byte .data n := by
  rw [Block.cryptStream, applyKeystream_data, Block.byte, Block.arr]

theorem Block.cryptContStream_data (b : Block) (n : Nat) :
    b.cryptContStream.data.read (b.draw .data) n =
      if n < b.dataLength then
        b.byte .data n ^^^ keystreamByte (b.draw .work)
          (prgaAfter b.csb 0 (b.draw .work) ⟨b.ci, b.cj, b.work⟩ (n + 1))
      else b.byte .data n := by
  rw [Block.cryptContStream, applyKeystream_data, Block.byte, Block.arr]

theorem Block.scryptStream_data (b : Block) (n : Nat) :
    b.scryptStream.data.read (b.draw .data) n =
      if n < b.dataLength then
        b.byte .data n ^^^ keystreamByte (b.draw .table)
          (prgaAfter b.scryptStrideA b.scryptStrideB (b.draw .table) ⟨byteLane 0 b.nonce, byteLane 1 b.nonce, b.table⟩
            (n + 1))
      else b.byte .data n := by
  rw [Block.scryptStream, applyKeystream_data, Block.byte, Block.arr]

theorem Block.scryptContStream_data (b : Block) (n : Nat) :
    b.scryptContStream.data.read (b.draw .data) n =
      if n < b.dataLength then
        b.byte .data n ^^^ keystreamByte (b.draw .table)
          (prgaAfter b.csa b.csb (b.draw .table) ⟨b.ci, b.cj, b.table⟩ (n + 1))
      else b.byte .data n := by
  rw [Block.scryptContStream, applyKeystream_data, Block.byte, Block.arr]

theorem Block.cryptStream_data_wf {b : Block} (h : b.data.wf) : b.cryptStream.data.wf := by
  rw [Block.cryptStream]; exact applyKeystream_data_wf h _

theorem Block.cryptContStream_data_wf {b : Block} (h : b.data.wf) : b.cryptContStream.data.wf := by
  rw [Block.cryptContStream]; exact applyKeystream_data_wf h _

theorem Block.scryptStream_data_wf {b : Block} (h : b.data.wf) : b.scryptStream.data.wf := by
  rw [Block.scryptStream]; exact applyKeystream_data_wf h _

theorem Block.scryptContStream_data_wf {b : Block} (h : b.data.wf) : b.scryptContStream.data.wf := by
  rw [Block.scryptContStream]; exact applyKeystream_data_wf h _

end Sys2Proof.Machine
end

