-- ==== Sys2Proof/Tests/Slice0.lean ====
section
/-! SUPPORT. Small tests, each with the rule or the table of spec/ its expected value comes from, and a witness for the
hypotheses of each statement: `witness_<Name>` meets those of `Obligations.<Name>`. -/

namespace Sys2Proof.Tests

open Sys2Proof.Machine Sys2Proof.Spec

/-! ### Well-formedness: each check refuses an ill-formed term -/

theorem test_wf_refuses_reserved_bits : (CommandFields.mk 3 0 1).reservedClear = false := by decide
theorem test_wf_refuses_opcode_zero : (CommandFields.mk 0 0 0).opcodeKnown = false := by decide
theorem test_wf_refuses_opcode_six : (CommandFields.mk 6 0 0).opcodeKnown = false := by decide
theorem test_wf_refuses_tcommit_continuation : (CommandFields.mk 5 1 0).continuationAllowed = false := by decide
theorem test_wf_refuses_their_words :
    [CommandFields.mk 3 0 1, .mk 0 0 0, .mk 6 0 0, .mk 5 1 0].all (fun f => !f.wf) = true := by decide
theorem test_wf_accepts_every_command (i : Instr) : i.wf = true := by cases i <;> decide
theorem test_wf_refuses_three_byte_read : (ScriptOp.read 0x300 3).sizeOk = false := by decide
theorem test_wf_refuses_eight_byte_write : (ScriptOp.write 0x300 8 0).sizeOk = false := by decide
theorem test_wf_refuses_branch_past_the_end : scriptWf [.bnz 0x00C 1 2] = false := by decide
theorem test_wf_accepts_a_poll : scriptWf [.bnz 0x00C 1 0, .read 0x300 1] = true := by decide

/-! ### Decoding: words written out from 30_encoding R61 and R62 (RSV, CONT, OP) -/

theorem test_decode_select : decode 0b00000000000000000000000_0_00000001 = .command .select := by decide
theorem test_decode_schedule : decode 0b00000000000000000000000_0_00000010 = .command .schedule := by decide
theorem test_decode_crypt : decode 0b00000000000000000000000_0_00000011 = .command .crypt := by decide
theorem test_decode_crypt_cont : decode 0b00000000000000000000000_1_00000011 = .command .cryptCont := by decide
theorem test_decode_scrypt : decode 0b00000000000000000000000_0_00000100 = .command .scrypt := by decide
theorem test_decode_scrypt_cont : decode 0b00000000000000000000000_1_00000100 = .command .scryptCont := by decide
theorem test_decode_tcommit : decode 0b00000000000000000000000_0_00000101 = .command .tcommit := by decide
theorem test_decode_table_word_is_little_endian : decodeTableWord 32 0x00000103 = some .cryptCont := by decide
theorem test_decode_lanes : decodeBytes [0x04, 0x01, 0x00, 0x00] = .command .scryptCont := by decide
theorem test_decode_narrow_write : decodeBytes [0x01] = .refused .notOneWord := by decide

/-- 30_encoding R64 and 95_test_vectors section 8.1: reserved words. -/
theorem test_decode_reserved :
    ([0x00000000, 0x00000006, 0x000000FF, 0x00000101, 0x00000102, 0x00000105, 0x00000203, 0x80000003] : List Word).all
      (fun w => (decode w).instr? == none) = true := by decide

theorem test_encode (i : Instr) : decode (encode i) = .command i := by cases i <;> decide

/-! ### Helpers -/

/-- The machine with block `b`, no script and no schedule. -/
def machine (b : Block) : State := ⟨b, Master.empty, []⟩

/-- The machine with block `b`, running `script`, with `schedule` to come. -/
def scripted (b : Block) (script : List ScriptOp) (schedule : List Move) : State :=
  ⟨b, { Master.empty with script := script }, schedule⟩

/-- A block just reset, with capacity 4 at base 0. -/
def fresh : Block := Block.reset { dataCap := 4, base := 0 } 0

/-- The permutation with v at index v. -/
def identity : Memory := (List.range 256).map fun k => (k, BitVec.ofNat 8 k)

/-- The block of an outcome, if it goes on. -/
def blockOf : Host.Outcome State Fault Refusal → Option Block
  | .next s => some s.block
  | _       => none

/-! ### Commands -/

/-- 95_test_vectors section 9.2 (P2), second SELECT. -/
theorem test_select_p2 :
    (blockOf (exec .select (machine { fresh with selIn := 0x02, selPrev := 0x61 }))).map (·.selOut) = some 0x5B := by
  decide

/-- 95_test_vectors section 2.2: the decorrelation wraps. -/
theorem test_select_wraps :
    (blockOf (exec .select (machine { fresh with selIn := 0x9F, selPrev := 0xFF }))).map (fun b => (b.selOut, b.statusWord))
      = some (0x01, 0x02) := by decide

/-- 41_key_schedule R82 by hand: with stride 0x61 phase A writes 0, 1, 2, 3 at 0x61, 0xC2, 0x23, 0x84. -/
theorem test_schedule_fill :
    forRange 4 (fillStep 0x61) ⟨0, []⟩ = ⟨0x84, [(0x23, 2), (0x61, 0), (0x84, 3), (0xC2, 1)]⟩ := by decide

/-- 41_key_schedule R84 by hand: pos = 0x5B, KEY[91 mod 3] = 2, j = 2 + 0x10, and the two bytes swap. -/
theorem test_schedule_mix :
    let b := { fresh with keyLen := 3, key := [(0, 1), (1, 2), (2, 3)] }
    mixStep 0x5B b.keyByte (b.draw .table) ⟨0, 0, [(0x12, 0x77), (0x5B, 0x10)]⟩ =
      ⟨0x5B, 0x12, [(0x12, 0x10), (0x5B, 0x77)]⟩ := by decide

/-- 95_test_vectors section 4.1, premix iterations 0 and 1: the IV aliases WORK, so the second reads the byte the first
moved (42_standard_cipher R102). -/
theorem test_crypt_premix_alias :
    let p := forRange 2 (fun _ => premixStep 0x0B (fresh.ivByte) 256 (fresh.draw .work))
      ⟨0, 0, [(0, 0x32), (0x0B, 0x6B), (0x16, 0x7B), (0x9D, 0x3D)]⟩
    (p.i, p.j) = (0x16, 0x83) := by decide

/-- 95_test_vectors section 9.4 (P4): CRYPT without a table. -/
theorem test_crypt_no_table :
    (blockOf (exec .crypt (machine { fresh with dataLen := 1 }))).map (fun b => (b.errcode, b.statusWord))
      = some (5, 0x04) := by decide

/-- 42_standard_cipher R96 by hand: i = 0x59, j = 0x84, keystream WORK[0x85] = 0x53, and 0x48 XOR 0x53 = 0x1B. -/
theorem test_crypt_cont_one_byte :
    (blockOf (exec .cryptCont (machine
      { fresh with
        tv := true, ctx := .std, csb := 0x59, dataLen := 1, data := [(0, 0x48)]
        work := [(0x59, 0x84), (0x84, 0x01), (0x85, 0x53)] }))).map
      (fun b => (b.data, b.work, b.ci, b.cj, b.statusWord)) =
    some ([(0, 0x1B)], [(0x59, 0x01), (0x84, 0x84), (0x85, 0x53)], 0x59, 0x84, 0x1A) := by decide

/-- 95_test_vectors section 9.4 (P4): CRYPT.CONT with CTX = NONE after SCHEDULE. -/
theorem test_crypt_cont_no_context :
    (blockOf (exec .cryptCont (machine { fresh with tv := true, done := true }))).map (fun b => (b.errcode, b.statusWord))
      = some (7, 0x0C) := by decide

/-- 95_test_vectors section 9.3 (P3), the first byte, with the bytes of table T it touches. -/
theorem test_scrypt_first_byte :
    (blockOf (exec .scrypt (machine
      { fresh with
        tv := true, dataLen := 1, data := [(0, 0x48)], table := [(0x59, 0x27), (0x5E, 0x53), (0x82, 0x37)] }))).map
      (fun b => (b.data, b.table, b.csa, b.csb, b.statusWord)) =
    some ([(0, 0x1B)], [(0x59, 0x37), (0x5E, 0x53), (0x82, 0x27)], 0x59, 0x5B, 0x2A) := by decide

/-- 95_test_vectors section 9.3 (P3), the second byte, continued. -/
theorem test_scrypt_cont_second_byte :
    (blockOf (exec .scryptCont (machine
      { fresh with
        tv := true, ctx := .simple, ci := 0x59, cj := 0x82, csa := 0x59, csb := 0x5B, dataLen := 1, data := [(0, 0x45)]
        table := [(0x71, 0x5D), (0xB2, 0x94), (0xF1, 0xA9)] }))).map
      (fun b => (b.data, b.table, b.ci, b.cj)) =
    some ([(0, 0xEC)], [(0x71, 0x94), (0xB2, 0x5D), (0xF1, 0xA9)], 0xB2, 0x71) := by decide

/-- 44_table_management R113: a permutation is committed. -/
theorem test_tcommit_identity :
    (blockOf (exec .tcommit (machine { fresh with table := identity }))).map (·.statusWord) = some 0x0A := by
  decide +kernel

/-- 95_test_vectors section 9.4 (P4): a table with a duplicate is not, and TV stays 0. -/
theorem test_tcommit_duplicate :
    (blockOf (exec .tcommit (machine { fresh with table := identity.put 1 0 }))).map
      (fun b => (b.errcode, b.statusWord)) = some (8, 0x06) := by decide +kernel

/-! ### Port, errors, steps -/

/-- 95_test_vectors sections 3.1 and 8.4: TABLE = 32 62 5C 8A, little-endian, and the two bus errors. -/
theorem test_port_window :
    let b := { fresh with table := [(0, 0x32), (1, 0x62), (2, 0x5C), (3, 0x8A)] }
    [b.hostRead 0x300 4, b.hostRead 0x302 2, b.hostRead 0x301 1, b.hostRead 0x301 2, b.hostRead 0x302 4].map (·.2) =
      [⟨.okay, 0x8A5C6232⟩, ⟨.okay, 0x8A5C⟩, ⟨.okay, 0x62⟩, ⟨.slverr, 0⟩, ⟨.slverr, 0⟩] := by decide

/-- 95_test_vectors section 8.4: SEL_IN keeps its low byte. -/
theorem test_port_sel_in : ((fresh.hostWrite 0x02C 4 0x1FF).1.hostRead 0x02C 4).2 = ⟨.okay, 0xFF⟩ := by decide

/-- 44_table_management R111: a TABLE write ends validity and context. -/
theorem test_port_table_write :
    (({ fresh with tv := true, ctx := .std }).hostWrite 0x301 1 0x32).1 = { fresh with table := [(1, 0x32)] } := by decide

/-- 95_test_vectors section 8.2: from STATUS 0x0C with code 1, bit 1 changes nothing and bit 2 clears the error. -/
theorem test_status_clear :
    let b := { fresh with tv := true, err := true, errcode := 1 }
    (b.writeStatus 0x2 = b) ∧ b.writeStatus 0x4 = { fresh with tv := true } := by decide

/-- 95_test_vectors section 8.3, interleaving A: the second CMD write is dropped with
BUSY_CMD, an INTEN write takes effect, and a reserved offset reads 0. -/
theorem test_busy_window :
    let b := { fresh with tv := true, seq := .busy .crypt, doneIe := true, errIe := true }
    (b.hostWrite 0x008 4 4).1.statusWord = 0x0D ∧ (b.hostWrite 0x008 4 4).1.errcode = 2 ∧
    (b.hostWrite 0x008 4 4).1.irq = true ∧ (b.hostWrite 0x014 4 0).1 = { b with doneIe := false, errIe := false } ∧
    b.hostRead 0x400 4 = (b, ⟨.okay, 0⟩) := by decide

/-- 70_reset R139, R141: SELECT as the first command after reset. -/
theorem test_step_runs_the_fetched_word :
    (blockOf (step (State.reset.withFetchWord 32 1))).map (fun b => (b.selOut, b.statusWord)) = some (0x59, 0x02) := by
  decide

/-! ### Witnesses -/

theorem witness_LegalWordsPassTheFieldTests :
    fresh.seq = .idle ∧ ¬ legalFields (0x105 : Word).toNat ∧ ¬ legalFields (0 : Word).toNat ∧
    ¬ legalFields (0x80000003 : Word).toNat := by decide

theorem witness_StepRunsThePresentedCommand :
    let s := scripted fresh [.write 0x008 4 1] [.prompt]
    s.schedule = .prompt :: [] ∧ s.block.seq = .idle ∧ s.master.script[s.master.line]? = some (.write 0x008 4 1) ∧
    0x008 = s.block.base + 0x008 ∧ decode 1 = .command .select := by decide

theorem witness_StepRunsThePendingCommand :
    (scripted { fresh with seq := .busy .tcommit } [] [.engine]).schedule = .engine :: [] ∧
    (scripted { fresh with seq := .busy .tcommit } [] [.engine]).block.seq = .busy .tcommit ∧
    (scripted fresh [] [.engine]).schedule = .engine :: [] ∧ (scripted fresh [] [.engine]).block.seq = .idle := by decide

/-- Inside the aperture at its first and last byte; outside it just past the end. -/
theorem witness_StepTakesOneHostTransaction :
    (scripted fresh [.read 0 4] [.host]).schedule = .host :: [] ∧
    (scripted fresh [.read 0 4] [.host]).master.script[0]? = some (.read 0 4) ∧
    (0 < 0x2000 ∧ scriptAddress (.read 0 4) = 0 + 0) ∧ (0x1FFF < 0x2000 ∧ scriptAddress (.read 0x1FFF 1) = 0 + 0x1FFF) ∧
    0 + 0x2000 ≤ scriptAddress (.read 0x2000 4) := by decide

theorem witness_PromptMoveIsHostMoveThenEngineMove :
    (∃ s', (scripted fresh [.write 0x008 4 1] []).hostMove = .next s') ∧
    (scripted fresh [.read 0x2000 4] []).hostMove = .fault .outsideAperture := ⟨⟨_, rfl⟩, rfl⟩

theorem witness_PendingCommandCompletesNext :
    (machine { fresh with seq := .busy .select }).schedule = [] ∧
    (machine { fresh with seq := .busy .select }).block.seq = .busy .select := by decide

theorem witness_SelectorHitsEachOddValueTwice : (1 : Byte).toNat % 2 = 1 ∧ (255 : Byte).toNat % 2 = 1 := by decide

/-- Both ways to be ready: presented to an idle block, or pending. -/
theorem witness_SelectWritesSelOut :
    Ready (machine fresh) .select ∧ Ready (machine { fresh with seq := .busy .select }) .select :=
  ⟨.inl rfl, .inr rfl⟩

theorem witness_ScheduleBuildsTheTable :
    Ready (machine { fresh with keyLen := 1 }) .schedule ∧ (machine { fresh with keyLen := 1 }).block.keyLen ≠ 0 :=
  ⟨.inl rfl, by decide⟩

/-- Idle, a valid table, and DATA_LEN equal to DATA_CAP. -/
def cipherReady : State := machine { fresh with tv := true, dataLen := 4 }

theorem witness_CryptTransformsData :
    Ready cipherReady .crypt ∧ cipherReady.block.tv = true ∧ cipherReady.block.dataLen.toNat ≤ cipherReady.block.dataCap :=
  ⟨.inl rfl, by decide⟩

theorem witness_CryptContContinuesTheKeystream :
    let s := machine { fresh with ctx := .std, dataLen := 4 }
    Ready s .cryptCont ∧ s.block.ctx = .std ∧ s.block.dataLen.toNat ≤ s.block.dataCap := ⟨.inl rfl, by decide⟩

theorem witness_ScryptTransformsDataAndTable :
    Ready cipherReady .scrypt ∧ cipherReady.block.tv = true ∧ cipherReady.block.dataLen.toNat ≤ cipherReady.block.dataCap :=
  ⟨.inl rfl, by decide⟩

theorem witness_ScryptContContinuesTheKeystream :
    let s := machine { fresh with ctx := .simple, dataLen := 4 }
    Ready s .scryptCont ∧ s.block.ctx = .simple ∧ s.block.dataLen.toNat ≤ s.block.dataCap := ⟨.inl rfl, by decide⟩

theorem identity_get : ∀ k : Nat, k < 256 → identity.get k = some (BitVec.ofNat 8 k) := by decide +kernel

/-- The identity is a permutation, whatever the draws. -/
theorem identity_permutation (draw : Nat → Byte) : identity.Permutation draw := by
  intro v
  refine ⟨v.toNat, ⟨v.isLt, by simp [Memory.read, identity_get v.toNat v.isLt]⟩, ?_⟩
  rintro k ⟨hk, h⟩
  simp only [Memory.read, identity_get k hk, Option.getD_some] at h
  have := congrArg BitVec.toNat h
  simp at this
  omega

/-- A table of two equal bytes is not a permutation, whatever the draws. -/
theorem duplicate_not_permutation (draw : Nat → Byte) : ¬ Memory.Permutation [(0, 7), (1, 7)] draw := by
  intro h
  obtain ⟨k, -, hk⟩ := h 7
  have h0 := hk 0 ⟨by decide, rfl⟩
  have h1 := hk 1 ⟨by decide, rfl⟩
  omega

/-- One state for each clause. -/
theorem witness_TcommitChecksTheTable :
    (Ready (machine { fresh with table := identity }) .tcommit ∧ identity.Permutation (fresh.draw .table)) ∧
    (Ready (machine { fresh with table := [(0, 7), (1, 7)] }) .tcommit ∧
      ¬ Memory.Permutation [(0, 7), (1, 7)] (fresh.draw .table)) :=
  ⟨⟨.inl rfl, identity_permutation _⟩, .inl rfl, duplicate_not_permutation _⟩

theorem witness_ScheduleLeavesAPermutation :
    Ready (machine { fresh with keyLen := 0xFFFFFFFF }) .schedule ∧
    (machine { fresh with keyLen := 0xFFFFFFFF }).block.keyLen ≠ 0 ∧ 0 < 256 ∧ 255 < 256 := ⟨.inl rfl, by decide⟩

/-- KEY_LEN 256 and 300, with different data buffers. -/
theorem witness_ScheduleDependsOnTheKeyOnly :
    let s := machine { fresh with keyLen := 256 }
    let s' := machine { fresh with keyLen := 300, data := [(0, 1)] }
    Ready s .schedule ∧ Ready s' .schedule ∧ s.block.keyLen ≠ 0 ∧ s'.block.keyLen ≠ 0 ∧
    (s.block.keyLen = s'.block.keyLen ∨ (256 ≤ s.block.keyLen.toNat ∧ 256 ≤ s'.block.keyLen.toNat)) ∧
    (∀ k, k < min s.block.keyLen.toNat 256 → s.block.byte .key k = s'.block.byte .key k) :=
  ⟨.inl rfl, .inl rfl, by decide, by decide, .inr (by decide), fun _ _ => rfl⟩

/-- The same operands, different data; IV_LEN 256 and 300. -/
theorem witness_CryptKeystreamDependsOnItsOperandsOnly :
    let s := machine { fresh with tv := true, dataLen := 1, ivLen := 256 }
    let s' := machine { fresh with tv := true, dataLen := 4, ivLen := 300, data := [(0, 1)] }
    Ready s .crypt ∧ Ready s' .crypt ∧ s.block.tv = true ∧ s'.block.tv = true ∧
    s.block.dataLen.toNat ≤ s.block.dataCap ∧ s'.block.dataLen.toNat ≤ s'.block.dataCap ∧
    s.block.counter = s'.block.counter ∧
    (s.block.ivLen = s'.block.ivLen ∨ (256 ≤ s.block.ivLen.toNat ∧ 256 ≤ s'.block.ivLen.toNat)) ∧
    (∀ k, k < min s.block.ivLen.toNat 256 → s.block.byte .iv k = s'.block.byte .iv k) ∧
    (∀ k, k < 256 → s.block.byte .table k = s'.block.byte .table k) ∧
    (∃ n, n < s.block.dataLen.toNat ∧ n < s'.block.dataLen.toNat) :=
  ⟨.inl rfl, .inl rfl, rfl, rfl, by decide, by decide, rfl, .inr (by decide), fun _ _ => rfl, fun _ _ => rfl, 0, by decide⟩

theorem witness_CryptTwiceRestoresData :
    Ready cipherReady .crypt ∧ cipherReady.block.tv = true ∧ cipherReady.block.dataLen.toNat ≤ cipherReady.block.dataCap :=
  witness_CryptTransformsData

/-- Four data bytes, of which the host moves the last to DATA[0]. -/
def piecesReady (ctx : Ctx) : State := machine { fresh with tv := true, ctx := ctx, data := [(0, 1), (1, 2), (2, 3), (3, 4)] }

theorem piecesReady_moved (ctx : Ctx) : ∀ n, n < (1 : Word).toNat →
    Memory.read [(0, 4)] ((piecesReady ctx).block.draw .data) n = (piecesReady ctx).block.byte .data ((3 : Word).toNat + n) := by
  intro n hn
  have : n = 0 := by simpa using hn
  subst this
  rfl

/-- Three bytes, then one, filling the capacity: from no context for the first clause, from the saved one for the second. -/
theorem witness_CryptInPiecesIsOneCrypt :
    ((piecesReady .none).block.seq = .idle ∧ (piecesReady .none).block.tv = true ∧
      (3 : Word).toNat + (1 : Word).toNat ≤ (piecesReady .none).block.dataCap ∧
      (3 : Word).toNat + (1 : Word).toNat < 2 ^ 32 ∧
      (∀ n, n < (1 : Word).toNat → Memory.read [(0, 4)] ((piecesReady .none).block.draw .data) n =
        (piecesReady .none).block.byte .data ((3 : Word).toNat + n))) ∧
    ((piecesReady .std).block.seq = .idle ∧ (piecesReady .std).block.ctx = .std ∧
      (3 : Word).toNat + (1 : Word).toNat ≤ (piecesReady .std).block.dataCap ∧
      (∀ n, n < (1 : Word).toNat → Memory.read [(0, 4)] ((piecesReady .std).block.draw .data) n =
        (piecesReady .std).block.byte .data ((3 : Word).toNat + n))) :=
  ⟨⟨rfl, rfl, by decide, by decide, piecesReady_moved _⟩, rfl, rfl, by decide, piecesReady_moved _⟩

theorem witness_ScryptInPiecesIsOneScrypt :
    ((piecesReady .none).block.seq = .idle ∧ (piecesReady .none).block.tv = true ∧
      (3 : Word).toNat + (1 : Word).toNat ≤ (piecesReady .none).block.dataCap ∧
      (3 : Word).toNat + (1 : Word).toNat < 2 ^ 32 ∧
      (∀ n, n < (1 : Word).toNat → Memory.read [(0, 4)] ((piecesReady .none).block.draw .data) n =
        (piecesReady .none).block.byte .data ((3 : Word).toNat + n))) ∧
    ((piecesReady .simple).block.seq = .idle ∧ (piecesReady .simple).block.ctx = .simple ∧
      (3 : Word).toNat + (1 : Word).toNat ≤ (piecesReady .simple).block.dataCap ∧
      (∀ n, n < (1 : Word).toNat → Memory.read [(0, 4)] ((piecesReady .simple).block.draw .data) n =
        (piecesReady .simple).block.byte .data ((3 : Word).toNat + n))) :=
  ⟨⟨rfl, rfl, by decide, by decide, piecesReady_moved _⟩, rfl, rfl, by decide, piecesReady_moved _⟩

theorem witness_ScryptFromTheRestoredTableInverts :
    Ready cipherReady .scrypt ∧ cipherReady.block.tv = true ∧
    cipherReady.block.dataLen.toNat ≤ cipherReady.block.dataCap ∧
    (∀ k, k < 256 → Memory.read [] (cipherReady.block.draw .table) k = cipherReady.block.byte .table k) :=
  ⟨.inl rfl, rfl, by decide, fun _ _ => rfl⟩

/-- DATA_LEN = 0, with a valid table and each context. -/
theorem witness_EmptyBufferChangesNoData :
    let std := machine { fresh with tv := true, ctx := .std }
    let simple := machine { fresh with tv := true, ctx := .simple }
    std.block.dataLen = 0 ∧ Ready std .crypt ∧ Ready std .scrypt ∧ std.block.tv = true ∧ Ready std .cryptCont ∧
    std.block.ctx = .std ∧ simple.block.dataLen = 0 ∧ Ready simple .scryptCont ∧ simple.block.ctx = .simple :=
  ⟨rfl, .inl rfl, .inl rfl, rfl, .inl rfl, rfl, rfl, .inl rfl, rfl⟩

theorem witness_CaptureKeepsTheFirstCode : fresh.err = false ∧ ({ fresh with err := true }).err = true := by decide

/-- A reserved word while idle, and any word while busy. -/
theorem witness_RejectedCommandOnlyReports :
    (fresh.issue 0).seq = fresh.seq ∧
    (({ fresh with seq := .busy .select }).issue 1).seq = ({ fresh with seq := .busy .select }).seq := by decide

theorem witness_ScheduleWithoutKeyIsRejected : (machine fresh).block.seq = .idle ∧ (machine fresh).block.keyLen = 0 := by
  decide

theorem witness_CipherWithoutTableIsRejected :
    (Instr.crypt = .crypt ∨ Instr.crypt = .scrypt) ∧ (machine fresh).block.seq = .idle ∧ (machine fresh).block.tv = false :=
  by decide

theorem witness_ContinuationWithoutContextIsRejected :
    (machine fresh).block.seq = .idle ∧ (machine fresh).block.ctx ≠ .std ∧ (machine fresh).block.ctx ≠ .simple := by decide

/-- DATA_LEN one beyond DATA_CAP, for each kind of command. -/
theorem witness_LengthBeyondCapacityIsRejected :
    let std := machine { fresh with tv := true, ctx := .std, dataLen := 5 }
    let simple := machine { fresh with tv := true, ctx := .simple, dataLen := 5 }
    std.block.seq = .idle ∧ std.block.dataCap < std.block.dataLen.toNat ∧ std.block.tv = true ∧ std.block.ctx = .std ∧
    simple.block.seq = .idle ∧ simple.block.dataCap < simple.block.dataLen.toNat ∧ simple.block.ctx = .simple := by decide

theorem witness_RegisterWritesStoreOrAreIgnored : fresh.seq = .idle ∧ (0x000 = 0x000 ∨ 0x034 = 0x034) := by decide

/-- A bad size, a misaligned access, a narrow register access, and legal accesses at the edges. -/
theorem witness_BusErrorsAreExactlyTheBadAccesses :
    ¬ legalAccess 0x300 3 ∧ ¬ legalAccess 0x301 2 ∧ ¬ legalAccess 0x00C 2 ∧ legalAccess 0x00C 4 ∧ legalAccess 0xFFF 1 := by
  decide

/-- The first and last offsets of the three reserved ranges, with capacity 4. -/
theorem witness_ReservedOffsetsReadZeroAndIgnoreWrites :
    (legalAccess 0x038 4 ∧ isReserved fresh.dataCap 0x038) ∧ (legalAccess 0x0FC 4 ∧ isReserved fresh.dataCap 0x0FC) ∧
    (legalAccess 0x400 4 ∧ isReserved fresh.dataCap 0x400) ∧ (legalAccess 0xFFF 1 ∧ isReserved fresh.dataCap 0xFFF) ∧
    (legalAccess 0x1004 2 ∧ isReserved fresh.dataCap 0x1004) ∧ (legalAccess 0x1FFF 1 ∧ isReserved fresh.dataCap 0x1FFF) := by
  refine ⟨?_, ?_, ?_, ?_, ?_, ?_⟩ <;> decide

theorem witness_ReadsChangeNothingButWindowReadsWhileBusy :
    let busy := { fresh with seq := .busy .select }
    (busy.isBusy = true ∧ legalAccess 0x100 1 ∧ inWindow busy.dataCap 0x100) ∧
    (busy.isBusy = true ∧ legalAccess 0x1003 1 ∧ inWindow busy.dataCap 0x1003) ∧
    ¬ (busy.isBusy = true ∧ legalAccess 0x1004 1 ∧ inWindow busy.dataCap 0x1004) ∧
    ¬ (fresh.isBusy = true ∧ legalAccess 0x100 1 ∧ inWindow fresh.dataCap 0x100) := by decide

/-- The last word of TABLE, and the last byte of DATA. -/
theorem witness_WindowReadsAreLittleEndian :
    (windowBase .table = some 0x300 ∧ 252 < fresh.arrSize .table ∧ fresh.dataCap ≤ 4096 ∧ legalAccess (0x300 + 252) 4 ∧
      fresh.seq = .idle) ∧
    (windowBase .data = some 0x1000 ∧ 3 < fresh.arrSize .data ∧ legalAccess (0x1000 + 3) 1) := by decide

theorem witness_WindowWritesStoreTheirBytes :
    (windowBase .table = some 0x300 ∧ 252 < fresh.arrSize .table ∧ fresh.dataCap ≤ 4096 ∧ legalAccess (0x300 + 252) 4 ∧
      fresh.seq = .idle) ∧
    (windowBase .data = some 0x1000 ∧ 3 < fresh.arrSize .data ∧ legalAccess (0x1000 + 3) 1) :=
  witness_WindowReadsAreLittleEndian

theorem witness_BusyPortDropsAndReports :
    let busy := { fresh with seq := .busy .select }
    busy.seq = .busy .select ∧ (legalAccess 0x3FF 1 ∧ inWindow busy.dataCap 0x3FF) ∧
    (legalAccess 0x1000 4 ∧ inWindow busy.dataCap 0x1000) := by decide

theorem witness_TransactionsDoNotAffectThePendingCommand :
    (machine { fresh with seq := .busy .crypt }).block.seq = .busy .crypt := rfl

theorem witness_ResetDiscardsThePendingCommand :
    let s := scripted { fresh with seq := .busy .select } [] [.reset]
    s.schedule = .reset :: [] ∧ s.block.seq = .busy .select ∧ ∃ t, exec .select s = .next t := ⟨rfl, rfl, _, rfl⟩

/-- A step that is no reset, with a command pending. -/
theorem witness_OnlyResetDiscardsOrRedraws :
    let s := scripted { fresh with seq := .busy .select } [] [.host]
    (∃ t, step s = .next t) ∧ s.nextMove.1 ≠ .reset ∧ s.block.seq = .busy .select := ⟨⟨_, rfl⟩, by decide, rfl⟩

/-- The identity, as a list, is in canonical form and within 256. -/
theorem identity_wf : identity.wf ∧ identity.within 256 := by
  constructor
  · simp only [Memory.wf, identity, List.pairwise_map]
    exact List.pairwise_lt_range
  · intro c hc
    simp only [identity, List.mem_map, List.mem_range] at hc
    obtain ⟨k, hk, rfl⟩ := hc
    exact hk

/-- A block in the STD context, with a pending CRYPT.CONT over its whole buffer. -/
def stdBlock : Block :=
  { fresh with tv := true, ctx := .std, dataLen := 4, table := identity, work := identity, seq := .busy .cryptCont }

/-- The same with a different CSA, which no command can read in that context. -/
def stdTwin : Block := { stdBlock with csa := 5 }

theorem stdBlock_inv : (machine stdBlock).Inv where
  consistent :=
    ⟨fun _ => rfl, fun _ => identity_permutation _, fun _ => rfl, fun _ => identity_permutation _, by decide, fun _ => rfl⟩
  capacity := ⟨by decide, by decide⟩
  pending := by
    intro i hi
    cases (show Seq.busy .cryptCont = .busy i from hi)
    decide
  memory := by
    intro a
    cases a
    case table => exact identity_wf
    case work => exact identity_wf
    all_goals exact ⟨by simp [machine, stdBlock, fresh, Block.reset, BlockState.reset, Block.arr], by
      simp [machine, stdBlock, fresh, Block.reset, BlockState.reset, Block.arr, Memory.within]⟩
  aligned := rfl

theorem witness_StepKeepsTheInvariant : (machine stdBlock).Inv ∧ ∃ t, step (machine stdBlock) = .next t :=
  ⟨stdBlock_inv, _, rfl⟩

theorem witness_ResetMeetsTheInvariant : 1 ≤ 1 ∧ 1 ≤ 4096 ∧ 4096 ≤ 4096 ∧ 0x2000 % 0x2000 = 0 := by decide

theorem fresh_atReset : (machine fresh).AtReset := ⟨rfl, ⟨by decide, by decide⟩, rfl⟩

theorem witness_ReachableStatesAreConsistent : State.reset.block.Reachable ∧ fresh.Reachable :=
  ⟨.reset _ ⟨rfl, ⟨by decide, by decide⟩, rfl⟩, .reset _ fresh_atReset⟩

/-- 70_reset R150: a state just reset is CLEAN, and so is the block after a SELECT run from it, at the start of any script. -/
theorem test_clean_states :
    (machine fresh).Clean ∧
    ∃ t, step (scripted fresh [.write 0x008 4 1] [.prompt]) = .next t ∧ t.block.selOut = 0x59 ∧
      ∀ script schedule, (scripted t.block script schedule).Clean :=
  have fresh_reachable : fresh.Reachable := .reset (machine fresh) fresh_atReset
  ⟨⟨fresh_reachable, rfl, rfl⟩, _, rfl, by decide, fun _ _ =>
    { reachable := have h := Block.Reachable.step (scripted fresh [.write 0x008 4 1] [.prompt]) _ fresh_reachable rfl; h
      idle := rfl
      noError := rfl }⟩

/-- The two ends of the range: no error, and code 8 captured. -/
theorem witness_StepKeepsErrcodeLegal :
    (fresh.errcode.toNat ≤ 8 ∧ (fresh.err = false → fresh.errcode = 0)) ∧
    (({ fresh with err := true, errcode := 8 } : Block).errcode.toNat ≤ 8) ∧ ∃ t, step (machine fresh) = .next t :=
  ⟨by decide, by decide, _, rfl⟩

/-- A step that sets TV, and one that clears it. -/
theorem witness_TableValidChangesOnlyAtItsEvents :
    (∃ t, step (machine { fresh with table := identity, seq := .busy .tcommit }) = .next t ∧ t.block.tv = true) ∧
    (∃ t, step (scripted { fresh with tv := true } [.write 0x300 1 0] [.host]) = .next t ∧ t.block.tv = false) :=
  ⟨⟨_, rfl, by decide +kernel⟩, _, rfl, by decide⟩

/-- A step that saves a context, and one that ends one. -/
theorem witness_ContextChangesOnlyAtItsEvents :
    (∃ t, step (machine { fresh with tv := true, seq := .busy .scrypt }) = .next t ∧ t.block.ctx ≠ .none) ∧
    (∃ t, step (scripted { fresh with tv := true, ctx := .std } [.write 0x3FF 1 0] [.host]) = .next t ∧
      t.block.ctx ≠ .std) :=
  ⟨⟨_, rfl, by decide⟩, _, rfl, by decide⟩

theorem witness_HiddenStateStaysHidden :
    (machine stdBlock).Inv ∧ Alike (machine stdBlock).block stdTwin ∧ ∃ t, step (machine stdBlock) = .next t :=
  ⟨stdBlock_inv,
    ⟨rfl, fun _ => ⟨rfl, rfl, rfl, fun _ _ => rfl⟩, fun h => by cases h⟩, _, rfl⟩

/-- 30_encoding R71, R72: a symbol with an offset, LOADB, a label and the branch back to it, RUN, DUMPB. -/
theorem test_script_lines :
    assemble 0x2000
      [.w32 (.reg .status 1) 5, .comment "c", .loadb (.ivw 2) [1, 2], .label "again", .bnz32 (.reg .status 0) 4 "again",
        .run .cryptCont, .dumpb (.tabw 2) 2] =
      some [.write 0x200D 4 5, .write 0x2202 1 1, .write 0x2203 1 2, .bnz 0x200C 4 3, .write 0x2008 4 0x103,
        .bnz 0x200C 1 5, .read 0x2302 1, .read 0x2303 1] := by decide

/-- A branch whose label stands in the script, and one whose label does not. -/
theorem witness_ScriptLinesEncodeTheirTransactions :
    (∀ off mask name, ScriptLine.bnz32 off mask name ∈ [ScriptLine.label "a", .bnz32 (.reg .id 0) 1 "a"] →
      ScriptLine.label name ∈ [ScriptLine.label "a", .bnz32 (.reg .id 0) 1 "a"]) ∧
    (ScriptLine.bnz32 (.reg .id 0) 1 "b" ∈ [ScriptLine.label "a", .bnz32 (.reg .id 0) 1 "b"] ∧
      ScriptLine.label "b" ∉ [ScriptLine.label "a", .bnz32 (.reg .id 0) 1 "b"]) := by
  refine ⟨?_, by decide, by decide⟩
  intro off mask name h
  simp at h
  simp [h]

theorem witness_RunOfACommandEndsInThreeSteps :
    let s := scripted fresh [.write 0x008 4 1, .bnz 0x00C 1 1] []
    s.block.seq = .idle ∧ s.schedule = [] ∧ s.master.line = 0 ∧ assemble s.block.base [.run .select] = some s.master.script := by
  decide

end Sys2Proof.Tests
end

section
/-! O58, the operations: WORK and the context registers can be replaced before or after any operation that does not read
them, with the same result (10_state R37, R38). -/

namespace Sys2Proof.Machine

/-- The part of the block no transaction shows: WORK and the context registers (10_state R37, R38). -/
structure Hidden where
  work : Memory
  ci   : Byte
  cj   : Byte
  csa  : Byte
  csb  : Byte

/-- The hidden part of the block. -/
def Block.hidden (b : Block) : Hidden := ⟨b.work, b.ci, b.cj, b.csa, b.csb⟩

/-- The block with its hidden part replaced. -/
def Block.withHidden (b : Block) (h : Hidden) : Block :=
  { b with work := h.work, ci := h.ci, cj := h.cj, csa := h.csa, csb := h.csb }

@[simp] theorem Block.withHidden_isBusy (b : Block) (h : Hidden) : (b.withHidden h).isBusy = b.isBusy := rfl

@[simp] theorem Block.withHidden_arrSize (b : Block) (h : Hidden) (a : Arr) :
    (b.withHidden h).arrSize a = b.arrSize a := by cases a <;> rfl

theorem Block.withHidden_arr (b : Block) (h : Hidden) {a : Arr} (host : a ≠ .work) :
    (b.withHidden h).arr a = b.arr a := by
  cases a
  case work => exact absurd rfl host
  all_goals rfl

theorem Block.withHidden_setArr (b : Block) (h : Hidden) {a : Arr} (host : a ≠ .work) (m : Memory) :
    (b.withHidden h).setArr a m = (b.setArr a m).withHidden h := by
  cases a
  case work => exact absurd rfl host
  all_goals rfl

/-- The issue checks read no hidden register (60_exceptions R120). -/
theorem Block.withHidden_issueError (b : Block) (h : Hidden) (i : Instr) :
    (b.withHidden h).issueError i = b.issueError i := by cases i <;> rfl

theorem Block.withHidden_capture (b : Block) (h : Hidden) (c : ErrCode) :
    (b.withHidden h).capture c = (b.capture c).withHidden h := rfl

theorem Block.withHidden_accept (b : Block) (h : Hidden) (i : Instr) :
    (b.withHidden h).accept i = (b.accept i).withHidden h := by
  simp only [Block.accept, Block.withHidden_issueError]
  cases b.issueError i <;> rfl

theorem Block.withHidden_issue (b : Block) (h : Hidden) (w : Word) :
    (b.withHidden h).issue w = (b.issue w).withHidden h := by
  have seq : (b.withHidden h).seq = b.seq := rfl
  unfold Block.issue
  rw [seq]
  cases b.seq with
  | busy j => rfl
  | idle =>
    cases decode w with
    | refused r => rfl
    | command i => exact b.clearDone.withHidden_accept h i

theorem Block.withHidden_configure (b : Block) (h : Hidden) {b' c' : Block} (stored : c' = b'.withHidden h) :
    (b.withHidden h).configure c' = (b.configure b').withHidden h := by
  simp only [Block.configure, Block.withHidden_isBusy, stored, Block.withHidden_capture]
  exact (apply_ite (Block.withHidden · h) _ _ _).symm

theorem Block.withHidden_writeReg (b : Block) (h : Hidden) (v : Word) (r : Reg) :
    (b.withHidden h).writeReg v r = (b.writeReg v r).withHidden h := by
  cases r
  case cmd => exact b.withHidden_issue h v
  case keyLen | ivLen | counter | nonce | dataLen | selIn | selPrev => exact b.withHidden_configure h rfl
  all_goals rfl

theorem Block.withHidden_readReg (b : Block) (h : Hidden) (r : Reg) : (b.withHidden h).readReg r = b.readReg r := by
  cases r <;> rfl

theorem Block.withHidden_readLanes (b : Block) (h : Hidden) {a : Arr} (host : a ≠ .work) (k n : Nat) :
    (b.withHidden h).readLanes a k n = b.readLanes a k n := by
  have byte (x : Nat) : (b.withHidden h).byte a x = b.byte a x := by
    rw [Block.byte, b.withHidden_arr h host]; rfl
  simp only [Block.readLanes, byte, Block.withHidden_arrSize]

theorem Block.withHidden_storeWindow (b : Block) (h : Hidden) {a : Arr} (host : a ≠ .work) (k n : Nat) (v : Word) :
    (b.withHidden h).storeWindow a k n v = (b.storeWindow a k n v).withHidden h := by
  simp only [Block.storeWindow, Block.writeLanes_eq, Block.withHidden_arrSize, b.withHidden_arr h host,
    b.withHidden_setArr h host]
  cases a <;> rfl

/-- A host transaction neither reads nor writes the hidden part: same reply, and the same change of the rest. -/
theorem Block.withHidden_transact (b : Block) (h : Hidden) (off : Nat) (t : Transaction) :
    (b.withHidden h).transact off t = ((b.transact off t).1.withHidden h, (b.transact off t).2) := by
  have region : regionAt (b.withHidden h).dataCap off = regionAt b.dataCap off := rfl
  cases t with
  | memRead n =>
    simp only [Block.transact, Block.hostRead, region]
    cases accessOk off n with
    | false => rfl
    | true =>
      cases hr : regionAt b.dataCap off with
      | register r => simp only [if_true, Block.withHidden_readReg]
      | reserved => rfl
      | window a k =>
        simp only [if_true, Block.withHidden_isBusy, b.withHidden_readLanes h (regionAt_window hr)]
        cases b.isBusy <;> rfl
  | memWrite n v =>
    simp only [Block.transact, Block.hostWrite, region]
    cases accessOk off n with
    | false => rfl
    | true =>
      cases hr : regionAt b.dataCap off with
      | register r => simp only [if_true, Block.withHidden_writeReg]
      | reserved => rfl
      | window a k =>
        simp only [if_true, Block.withHidden_isBusy, b.withHidden_storeWindow h (regionAt_window hr)]
        cases b.isBusy <;> rfl

/-- `b'` has the hidden part of `b` and its draws, and the context of `b` or none. -/
structure Block.KeepsHidden (b b' : Block) : Prop where
  hidden : b'.hidden = b.hidden
  epoch  : b'.epoch = b.epoch
  ctx    : b'.ctx = b.ctx ∨ b'.ctx = .none

theorem Block.keepsHidden_storeWindow (b : Block) {a : Arr} (host : a ≠ .work) (k n : Nat) (v : Word) :
    b.KeepsHidden (b.storeWindow a k n v) := by
  rw [Block.storeWindow, Block.writeLanes_eq]
  cases a
  case work => exact absurd rfl host
  case table => exact ⟨rfl, rfl, .inr rfl⟩
  all_goals exact ⟨rfl, rfl, .inl rfl⟩

theorem Block.keepsHidden_issue (b : Block) (w : Word) : b.KeepsHidden (b.issue w) := by
  rcases b.issue_cases w with ⟨-, e⟩ | ⟨-, -, e⟩ | ⟨-, i, c, -, -, e⟩ | ⟨-, i, -, -, e⟩
  all_goals exact e ▸ ⟨rfl, rfl, .inl rfl⟩

/-- No transaction changes the hidden part, and the only change of context is its end. -/
theorem Block.keepsHidden_transact (b : Block) (off : Nat) (t : Transaction) :
    b.KeepsHidden (b.transact off t).1 := by
  generalize hb : (b.transact off t).1 = b'
  have e := b.transact_effect off t
  rw [hb] at e
  cases e with
  | store a k n v _ host => exact b.keepsHidden_storeWindow host k n v
  | issue w => exact b.keepsHidden_issue w
  | configure r v _ _ h =>
    cases r <;> cases h
    all_goals exact ⟨rfl, rfl, .inl rfl⟩
  | nothing | busyAccess | status | inten => exact ⟨rfl, rfl, .inl rfl⟩

theorem Block.keepsHidden_performTcommit (b : Block) : b.KeepsHidden (performTcommit b) := by
  rcases performTcommit_cases b with ⟨-, e⟩ | ⟨-, e⟩
  all_goals exact e ▸ ⟨rfl, rfl, .inl rfl⟩

theorem Block.withHidden_performTcommit (b : Block) (h : Hidden) :
    performTcommit (b.withHidden h) = (performTcommit b).withHidden h := by
  have permutation : (b.withHidden h).tableIsPermutation = b.tableIsPermutation := rfl
  simp only [performTcommit, permutation]
  cases b.tableIsPermutation <;> rfl

/-- Accepting a command changes no operand of the issue checks (60_exceptions R120). -/
theorem Block.issueError_accepted (b : Block) (i j : Instr) :
    Block.issueError { b.clearDone with seq := .busy i } j = b.issueError j := by cases j <;> rfl

/-- A transaction leaves a pending command checked: it changes no operand while one is pending, and accepts a command only
after its checks (20_memory R51, 60_exceptions R120). -/
theorem Block.pendingChecked_transact {b : Block} (checked : b.PendingChecked) (off : Nat) (t : Transaction) :
    (b.transact off t).1.PendingChecked := by
  cases hs : b.seq with
  | busy j =>
    obtain ⟨done, err, errcode, doneIe, errIe, e⟩ := Block.transact_busy hs off t
    rw [e]
    intro i hi
    have same : Block.issueError { b with done, err, errcode, doneIe, errIe } i = b.issueError i := by cases i <;> rfl
    exact same.trans (checked i hi)
  | idle =>
    have still (b' : Block) (h : b'.seq = .idle) : b'.PendingChecked := fun i hi => by rw [h] at hi; cases hi
    generalize hb : (b.transact off t).1 = b'
    have e := b.transact_effect off t
    rw [hb] at e
    cases e with
    | nothing | busyAccess | status | inten => exact still _ hs
    | configure r v _ _ h =>
      cases r <;> cases h
      all_goals exact still _ hs
    | store a k n v =>
      refine still _ ?_
      rw [Block.storeWindow, Block.writeLanes_eq]
      cases a <;> exact hs
    | issue w =>
      rcases b.issue_cases w with ⟨busy, -⟩ | ⟨-, -, e⟩ | ⟨-, i, c, -, -, e⟩ | ⟨-, i, -, ok, e⟩
      · rw [Block.isBusy_idle hs] at busy; cases busy
      · exact e ▸ still _ hs
      · exact e ▸ still _ hs
      · rw [e]
        intro j hj
        cases hj
        exact (b.issueError_accepted i i).trans ok

/-- A `.CONT` command whose checks pass has its context. -/
theorem Block.ctx_of_contError_none {b : Block} {c : Ctx} (h : b.contError c = none) : b.ctx = c := by
  by_contra hne
  simp [Block.contError, hne] at h

/-- Generators with the same indices are the same when their arrays read the same. -/
theorem Prga.same_of_arr {draw draw' : Nat → Byte} {m m' : Memory} (h : Memory.Same draw draw' m m') (i j : Byte) :
    Prga.Same draw draw' ⟨i, j, m⟩ ⟨i, j, m'⟩ := ⟨rfl, rfl, h⟩

/-- Streams whose generators are the same and whose DATA is the same list. -/
def Stream.Same (draw draw' : Nat → Byte) (s t : Stream) : Prop := Prga.Same draw draw' s.gen t.gen ∧ s.data = t.data

/-- The keystream loop depends on the bytes of the swapped array only, and writes the same DATA from the same. -/
theorem applyKeystream_same {draw draw' : Nat → Byte} {p q : Prga} (h : Prga.Same draw draw' p q) (data : Memory)
    (stride addend : Byte) (dataDraw : Nat → Byte) (len : Nat) :
    Stream.Same draw draw' (applyKeystream stride addend draw dataDraw len ⟨p, data⟩)
      (applyKeystream stride addend draw' dataDraw len ⟨q, data⟩) := by
  refine forRange_rel (Stream.Same draw draw') _ _ _ _ len ⟨h, rfl⟩ fun n x y _ hxy => ?_
  obtain ⟨gen, data⟩ := hxy
  have gen' := prgaStep_same gen stride addend
  exact ⟨gen', by simp only [applyStep, data, keystreamByte_same gen']⟩

/-- `ivb(k)` for k < 256 depends on the bytes of WORK only (42_standard_cipher R92). -/
theorem Block.ivByte_same (b : Block) {w w' : Memory} (h : Memory.Same (b.draw .work) (b.draw .work) w w') {k : Nat}
    (hk : b.ivLen = 0 → k < 256) : b.ivByte w k = b.ivByte w' k := by
  unfold Block.ivByte
  split
  · next fallback => exact h k (hk fallback)
  · rfl

/-- One pre-mixing iteration depends on the bytes of WORK only. -/
theorem premixStep_same (b : Block) (stride : Byte) {p q : Prga}
    (h : Prga.Same (b.draw .work) (b.draw .work) p q) :
    Prga.Same (b.draw .work) (b.draw .work) (premixStep stride b.ivByte b.ivLength (b.draw .work) p)
      (premixStep stride b.ivByte b.ivLength (b.draw .work) q) := by
  obtain ⟨hi, hj, arr⟩ := h
  have read (x : Byte) : p.arr.read (b.draw .work) x.toNat = q.arr.read (b.draw .work) x.toNat := arr _ x.isLt
  have iv : b.ivByte p.arr (q.j.toNat % b.ivLength) = b.ivByte q.arr (q.j.toNat % b.ivLength) :=
    b.ivByte_same arr fun fallback => by
      rw [Block.ivLength, if_pos fallback]
      exact Nat.mod_lt _ (by decide)
  refine ⟨by simp only [premixStep, hi], by simp only [premixStep, hi, hj, read, iv], ?_⟩
  simp only [premixStep, hi, hj, read, iv]
  exact arr.swap (BitVec.isLt _) (BitVec.isLt _)

section
variable (b : Block) (h : Hidden)

/-- After Step 1 WORK reads as TABLE, whatever it held (42_standard_cipher R91). -/
theorem Block.withHidden_workCopy :
    Memory.Same (b.draw .work) (b.draw .work) (b.withHidden h).workCopy b.workCopy := fun k hk => by
  rw [Block.read_workCopy _ _ k hk, Block.read_workCopy _ _ k hk]
  rfl

theorem Block.withHidden_cryptStrideA : (b.withHidden h).cryptStrideA = b.cryptStrideA :=
  congrArg (cs · 0) (b.ivByte_same (b.withHidden_workCopy h) fun _ => by decide)

theorem Block.withHidden_cryptStrideB : (b.withHidden h).cryptStrideB = b.cryptStrideB := by
  rw [Block.cryptStrideB, b.withHidden_cryptStrideA h]
  rfl

theorem Block.withHidden_premix :
    Prga.Same (b.draw .work) (b.draw .work) (b.withHidden h).premix b.premix := by
  rw [Block.premix, Block.premix, b.withHidden_cryptStrideA h]
  have start := Prga.same_of_arr (b.withHidden_workCopy h) (byteLane 2 b.counter) (byteLane 3 b.counter)
  exact forRange_rel (Prga.Same (b.draw .work) (b.draw .work)) _ _ _ _ 256 start fun _ _ _ _ hxy =>
    premixStep_same b b.cryptStrideA hxy

/-- CRYPT reads neither WORK nor the context registers (42_standard_cipher R91 to R94). -/
theorem Block.withHidden_cryptStream :
    Stream.Same (b.draw .work) (b.draw .work) (b.withHidden h).cryptStream b.cryptStream := by
  rw [Block.cryptStream, Block.cryptStream, b.withHidden_cryptStrideB h]
  obtain ⟨-, -, premixed⟩ := b.withHidden_premix h
  have start := Prga.same_of_arr premixed (byteLane 0 b.counter) (byteLane 1 b.counter)
  exact applyKeystream_same start b.data b.cryptStrideB 0 (b.draw .data) b.dataLength

/-- SCHEDULE reads neither WORK nor the context registers (41_key_schedule R81 to R84). -/
theorem Block.withHidden_performSchedule :
    performSchedule (b.withHidden h) = (performSchedule b).withHidden h := by
  have table : (b.withHidden h).scheduledTable = b.scheduledTable := by
    rw [Block.scheduledTable, Block.scheduledTable]; rfl
  rw [performSchedule, performSchedule, table]
  generalize b.scheduledTable = scheduled
  rfl

end

end Sys2Proof.Machine
end

section
/-! O58: alike blocks stay alike through every operation, every command and every move. -/

namespace Sys2Proof.Spec

open Sys2Proof.Machine

theorem Alike.eq_withHidden {b c : Block} (a : Alike b c) : c = b.withHidden c.hidden := a.rest

/-- Alike blocks have the same interrupt level (60_exceptions R126). -/
theorem Alike.irq_eq {b c : Block} (a : Alike b c) : c.irq = b.irq := by rw [a.eq_withHidden]; rfl

/-- An operation that neither reads nor writes the hidden part, and that at most ends the context, keeps blocks alike. -/
theorem Alike.of_oblivious {b c : Block} (a : Alike b c) (f : Block → Block) (keeps : b.KeepsHidden (f b))
    (commutes : ∀ h, f (b.withHidden h) = (f b).withHidden h) : Alike (f b) (f c) := by
  obtain ⟨hidden, epoch, ctx⟩ := keeps
  have kept : f c = (f b).withHidden c.hidden := by rw [← commutes, ← a.eq_withHidden]
  have old (m : Ctx) (hm : m ≠ .none) (h : (f b).ctx = m) : b.ctx = m := by
    rcases ctx with e | e
    · exact e ▸ h
    · exact absurd (h.symm.trans e) hm
  simp only [Block.hidden, Hidden.mk.injEq] at hidden
  obtain ⟨work, ci, cj, csa, csb⟩ := hidden
  have byte (k : Nat) : (f b).byte .work k = b.byte .work k := by
    simp only [Block.byte, Block.draw, Block.arr, work, epoch]
  have byte' (k : Nat) : ((f b).withHidden c.hidden).byte .work k = c.byte .work k := by
    have epoch' : c.epoch = b.epoch := by rw [a.eq_withHidden]; rfl
    simp only [Block.byte, Block.draw, Block.arr, Block.withHidden, Block.hidden, epoch, epoch']
  rw [kept]
  refine ⟨rfl, fun h => ?_, fun h => ?_⟩
  · obtain ⟨hi, hj, hb, hw⟩ := a.std (old _ (by decide) h)
    exact ⟨ci.trans hi, cj.trans hj, csb.trans hb, fun k hk => by rw [byte, byte', hw k hk]⟩
  · obtain ⟨hi, hj, ha, hb⟩ := a.simple (old _ (by decide) h)
    exact ⟨ci.trans hi, cj.trans hj, csa.trans ha, csb.trans hb⟩

theorem Alike.transact {b c : Block} (a : Alike b c) (off : Nat) (t : Transaction) :
    Alike (b.transact off t).1 (c.transact off t).1 :=
  a.of_oblivious (fun x => (x.transact off t).1) (b.keepsHidden_transact off t) fun h => by
    rw [b.withHidden_transact h]

/-- Alike blocks give the same reply. -/
theorem Alike.reply_eq {b c : Block} (a : Alike b c) (off : Nat) (t : Transaction) :
    (c.transact off t).2 = (b.transact off t).2 := by
  rw [a.eq_withHidden, b.withHidden_transact]

theorem Alike.complete {b c : Block} (a : Alike b c) : Alike b.complete c.complete :=
  a.of_oblivious Block.complete ⟨rfl, rfl, .inl rfl⟩ fun _ => rfl

/-- CRYPT computes the same DATA from alike blocks, and its own context. -/
theorem Alike.performCrypt {b c : Block} (a : Alike b c) : Alike (performCrypt b) (performCrypt c) := by
  rw [a.eq_withHidden]
  obtain ⟨⟨hi, hj, work⟩, data⟩ := b.withHidden_cryptStream c.hidden
  refine ⟨?_, fun _ => ⟨hi.symm, hj.symm, (b.withHidden_cryptStrideB _).symm, fun k hk => (work k hk).symm⟩,
    nofun⟩
  simp only [Machine.performCrypt, data]
  rfl

/-- CRYPT.CONT reads what blocks alike in context STD agree on. -/
theorem Alike.performCryptCont {b c : Block} (a : Alike b c) (std : b.ctx = .std) :
    Alike (performCryptCont b) (performCryptCont c) := by
  obtain ⟨hi, hj, csb, work⟩ := a.std std
  have stream : Stream.Same (b.draw .work) (b.draw .work) b.cryptContStream (b.withHidden c.hidden).cryptContStream := by
    rw [a.eq_withHidden] at hi hj csb work
    rw [Block.cryptContStream, Block.cryptContStream, ← hi, ← hj, ← csb]
    exact applyKeystream_same (Prga.same_of_arr work b.ci b.cj) b.data b.csb 0 (b.draw .data) b.dataLength
  rw [a.eq_withHidden] at csb ⊢
  obtain ⟨⟨si, sj, swork⟩, data⟩ := stream
  refine ⟨?_, fun _ => ⟨si, sj, csb, swork⟩, fun h => ?_⟩
  · simp only [Machine.performCryptCont, data]
    rfl
  · cases std.symm.trans h

/-- SCRYPT reads no context register, and saves its own context. -/
theorem Alike.performScrypt {b c : Block} (a : Alike b c) : Alike (performScrypt b) (performScrypt c) := by
  rw [a.eq_withHidden]
  exact ⟨rfl, nofun, fun _ => ⟨rfl, rfl, rfl, rfl⟩⟩

/-- SCRYPT.CONT reads what blocks alike in context SIMPLE agree on. -/
theorem Alike.performScryptCont {b c : Block} (a : Alike b c) (simple : b.ctx = .simple) :
    Alike (performScryptCont b) (performScryptCont c) := by
  have saved := a.simple simple
  rw [a.eq_withHidden] at saved ⊢
  obtain ⟨ci, cj, csa, csb⟩ := saved
  have stream : (b.withHidden c.hidden).scryptContStream = b.scryptContStream := by
    rw [Block.scryptContStream, ← ci, ← cj, ← csa, ← csb]
    rfl
  refine ⟨?_, fun h => ?_, fun _ => ⟨?_, ?_, csa, csb⟩⟩
  · simp only [Machine.performScryptCont, stream]
    rfl
  · cases simple.symm.trans h
  all_goals simp only [Machine.performScryptCont, stream]

/-- Every command whose checks pass keeps blocks alike (10_state R38). -/
theorem Alike.performOf {b c : Block} (a : Alike b c) (i : Instr) (checked : b.issueError i = none) :
    Alike (Machine.performOf i b) (Machine.performOf i c) := by
  cases i with
  | select => exact a.of_oblivious performSelect ⟨rfl, rfl, .inl rfl⟩ fun _ => rfl
  | schedule => exact a.of_oblivious performSchedule ⟨rfl, rfl, .inr rfl⟩ b.withHidden_performSchedule
  | crypt => exact a.performCrypt
  | cryptCont => exact a.performCryptCont (Block.ctx_of_contError_none checked)
  | scrypt => exact a.performScrypt
  | scryptCont => exact a.performScryptCont (Block.ctx_of_contError_none checked)
  | tcommit => exact a.of_oblivious performTcommit b.keepsHidden_performTcommit b.withHidden_performTcommit

/-- The run of a command, presented or pending, keeps blocks alike. -/
theorem Alike.runCommand {b c : Block} (a : Alike b c) (i : Instr) (ready : b.seq = .idle ∨ b.seq = .busy i)
    (checked : b.PendingChecked) :
    Alike (b.runCommand i (Machine.performOf i)) (c.runCommand i (Machine.performOf i)) := by
  have seq : c.seq = b.seq := by rw [a.eq_withHidden]; rfl
  have error : c.issueError i = b.issueError i := by rw [a.eq_withHidden, Block.withHidden_issueError]
  rcases ready with idle | busy
  · cases he : b.issueError i with
    | none =>
      rw [Block.runCommand_of_accepted idle he, Block.runCommand_of_accepted (seq.trans idle) (error.trans he)]
      have accepted : Alike { b.clearDone with seq := .busy i } { c.clearDone with seq := .busy i } :=
        a.of_oblivious (fun x => { x.clearDone with seq := .busy i }) ⟨rfl, rfl, .inl rfl⟩ fun _ => rfl
      exact (accepted.performOf i ((b.issueError_accepted i i).trans he)).complete
    | some e =>
      rw [Block.runCommand_of_rejected idle he, Block.runCommand_of_rejected (seq.trans idle) (error.trans he)]
      exact a.of_oblivious (fun x => x.clearDone.capture e) ⟨rfl, rfl, .inl rfl⟩ fun _ => rfl
  · rw [Block.runCommand_of_busy busy, Block.runCommand_of_busy (seq.trans busy)]
    exact (a.performOf i (checked i busy)).complete

/-- From state `s` the move `m` does the same on every block alike to the block of `s`: the same outcome outside the
block, and alike blocks again. -/
def InStep (m : State → Host.Outcome State Fault Refusal) (s : State) : Prop :=
  ∀ (c : Block) (t : State), Alike s.block c → m s = .next t →
    ∃ d, m { s with block := c } = .next { t with block := d } ∧ Alike t.block d

theorem inStep_exec (s : State) (i : Instr) (ready : s.block.seq = .idle ∨ s.block.seq = .busy i)
    (checked : s.block.PendingChecked) : InStep (exec i) s := by
  intro c t a hs
  rw [exec_eq] at hs
  cases hs
  exact ⟨_, exec_eq i _, a.runCommand i ready checked⟩

theorem inStep_engineMove (s : State) (checked : s.block.PendingChecked) : InStep State.engineMove s := by
  intro c t a hs
  have seq : c.seq = s.block.seq := by rw [a.eq_withHidden]; rfl
  cases h : s.block.seq with
  | idle =>
    simp only [State.engineMove, seq, h] at hs ⊢
    cases hs
    exact ⟨c, rfl, a⟩
  | busy i =>
    simp only [State.engineMove, seq, h] at hs ⊢
    exact inStep_exec s i (.inr h) checked c t a hs

theorem inStep_hostMove (s : State) : InStep State.hostMove s := by
  intro c t a hs
  have base : c.base = s.block.base := by rw [a.eq_withHidden]; rfl
  rcases s.hostMove_cases with ⟨ended, e⟩ | ⟨op, -, -, e⟩ | ⟨op, off, line, inside, e⟩
  · rw [e] at hs
    cases hs
    exact ⟨c, by simp only [State.hostMove, ended], a⟩
  · rw [e] at hs
    cases hs
  · rw [e] at hs
    cases hs
    refine ⟨(c.transact off (scriptTransaction op)).1, ?_, a.transact off _⟩
    simp only [State.hostMove, line, base, inside, a.reply_eq]

/-- The host's move leaves a pending command checked. -/
theorem pendingChecked_hostMove {s t : State} (checked : s.block.PendingChecked) (hs : s.hostMove = .next t) :
    t.block.PendingChecked := by
  rcases s.hostMove_cases with ⟨-, e⟩ | ⟨op, -, -, e⟩ | ⟨op, off, -, -, e⟩
  all_goals rw [e] at hs; cases hs
  · exact checked
  · exact Block.pendingChecked_transact checked off _

theorem inStep_promptMove (s : State) (checked : s.block.PendingChecked) : InStep State.promptMove s := by
  intro c t a hs
  have presented : ({ s with block := c } : State).presentedCommand = s.presentedCommand := by
    rw [a.eq_withHidden]; rfl
  rcases s.promptMove_cases with ⟨i, hp, e⟩ | ⟨hp, s', hhost, e⟩ | ⟨-, -, e⟩
  · have taken : ({ s with block := c } : State).promptMove = exec i { s.commandTaken with block := c } := by
      simp only [State.promptMove, presented, hp]; rfl
    rw [taken]
    exact inStep_exec s.commandTaken i (.inl (State.idle_of_presentedCommand (s := s) hp)) checked c t a (e ▸ hs)
  · obtain ⟨d, hd, a'⟩ := inStep_hostMove s c s' a hhost
    have both : ({ s with block := c } : State).promptMove = ({ s' with block := d } : State).engineMove := by
      simp only [State.promptMove, presented, hp, hd]
    rw [both]
    exact inStep_engineMove s' (pendingChecked_hostMove checked hhost) d t a' (e ▸ hs)
  · rw [e] at hs
    cases hs

/-- A reset leaves the same block whatever the hidden part held (70_reset R137). -/
theorem inStep_resetMove (s : State) : InStep (fun x => .next x.resetMove) s := by
  intro c t a hs
  cases hs
  refine ⟨s.resetMove.block, ?_, rfl, fun _ => ⟨rfl, rfl, rfl, fun _ _ => rfl⟩, fun _ => ⟨rfl, rfl, rfl, rfl⟩⟩
  rw [a.eq_withHidden]
  rfl

/-- Every move, scheduled or default, is in step. -/
theorem inStep_step (s : State) (checked : s.block.PendingChecked) : InStep step s := by
  intro c t a hs
  have next : ({ s with block := c } : State).nextMove = s.nextMove := by rw [a.eq_withHidden]; rfl
  have moves (m : Move) : InStep (State.move · m) { s with schedule := s.nextMove.2 } := by
    cases m with
    | host => exact inStep_hostMove _
    | prompt => exact inStep_promptMove _ checked
    | engine => exact inStep_engineMove _ checked
    | reset => exact inStep_resetMove _
  unfold step at hs ⊢
  rw [next]
  exact moves s.nextMove.1 c t a hs

/-- Settles O58: of the invariant only the checks of the pending command are needed, which give a pending `.CONT` the
context it reads. -/
theorem hiddenStateStaysHidden : Obligations.HiddenStateStaysHidden := by
  intro s c t inv a hs
  obtain ⟨d, hd, a'⟩ := inStep_step s inv.pending c t a hs
  exact ⟨d, hd, a', a'.irq_eq⟩

end Sys2Proof.Spec
end

section
/-! O52, the arrays as permutations: contents as a function on bytes, swaps, and what makes an array a permutation
(10_state R39, 44_table_management R113). -/

namespace Sys2Proof.Machine

/-- Bytes 0..255 of an array as a function of the index. -/
def Memory.contents (m : Memory) (draw : Nat → Byte) (k : Byte) : Byte := m.read draw k.toNat

theorem Memory.contents_ofNat (m : Memory) (draw : Nat → Byte) {k : Nat} (hk : k < 256) :
    m.contents draw (BitVec.ofNat 8 k) = m.read draw k := by
  rw [Memory.contents, BitVec.toNat_ofNat, Nat.mod_eq_of_lt hk]

/-- An array is a permutation exactly when its contents are a bijection of the bytes. -/
theorem Memory.permutation_iff (m : Memory) (draw : Nat → Byte) :
    m.Permutation draw ↔ Function.Bijective (m.contents draw) := by
  rw [Function.bijective_iff_existsUnique]
  refine forall_congr' fun v => ⟨?_, ?_⟩
  · rintro ⟨k, ⟨hk, hv⟩, unique⟩
    refine ⟨BitVec.ofNat 8 k, (m.contents_ofNat draw hk).trans hv, fun x hx => ?_⟩
    rw [← unique x.toNat ⟨x.isLt, hx⟩, BitVec.ofNat_toNat, BitVec.setWidth_eq]
  · rintro ⟨x, hx, unique⟩
    refine ⟨x.toNat, ⟨x.isLt, hx⟩, fun k ⟨hk, hv⟩ => ?_⟩
    rw [← unique (BitVec.ofNat 8 k) ((m.contents_ofNat draw hk).trans hv),
      BitVec.toNat_ofNat, Nat.mod_eq_of_lt hk]

/-- Every byte occurring is enough: there are as many indices as bytes. -/
theorem Memory.permutation_of_surjective {m : Memory} {draw : Nat → Byte}
    (h : Function.Surjective (m.contents draw)) : m.Permutation draw :=
  (m.permutation_iff draw).mpr ⟨Finite.injective_iff_surjective.mpr h, h⟩

/-- The test of TCOMMIT is sound (44_table_management R113). -/
theorem Memory.permutation_of_isPermutation {m : Memory} {draw : Nat → Byte} (h : m.isPermutation draw = true) :
    m.Permutation draw := by
  refine Memory.permutation_of_surjective fun v => ?_
  have once := List.all_eq_true.mp h v.toNat (List.mem_range.mpr v.isLt)
  rw [beq_iff_eq, BitVec.ofNat_toNat, BitVec.setWidth_eq] at once
  obtain ⟨k, hk, hv⟩ := List.mem_map.mp (List.count_pos_iff.mp (once ▸ Nat.one_pos))
  exact ⟨BitVec.ofNat 8 k, (m.contents_ofNat draw (List.mem_range.mp hk)).trans hv⟩

/-- Arrays with the same bytes are permutations alike. -/
theorem Memory.Permutation.of_same {m m' : Memory} {draw draw' : Nat → Byte} (h : m.Permutation draw)
    (same : Memory.Same draw' draw m' m) : m'.Permutation draw' := by
  rw [Memory.permutation_iff] at h ⊢
  rwa [show m'.contents draw' = m.contents draw from funext fun k => same _ k.isLt]

theorem Memory.contents_swap (m : Memory) (draw : Nat → Byte) (x y : Byte) :
    (m.swap draw x.toNat y.toNat).contents draw = m.contents draw ∘ Equiv.swap x y := by
  funext k
  simp only [Memory.contents, Memory.read_swap, Function.comp_apply, Equiv.swap_apply_def, BitVec.toNat_inj]
  split_ifs <;> simp_all

/-- What holds of an array after a swap of two of its bytes 0..255 when it held before. -/
def SwapClosed (draw : Nat → Byte) (Q : Memory → Prop) : Prop :=
  ∀ (m : Memory) (x y : Byte), Q m → Q (m.swap draw x.toNat y.toNat)

theorem swapClosed_permutation (draw : Nat → Byte) : SwapClosed draw (·.Permutation draw) := by
  intro m x y h
  rw [Memory.permutation_iff, Memory.contents_swap]
  exact ((m.permutation_iff draw).mp h).comp (Equiv.swap x y).bijective

/-- An array in canonical form that lists no byte beyond `size`. -/
def Memory.Canonical (m : Memory) (size : Nat) : Prop := m.wf ∧ m.within size

theorem Memory.Canonical.put {m : Memory} {size : Nat} (h : m.Canonical size) {k : Nat} (hk : k < size) (v : Byte) :
    (m.put k v).Canonical size := ⟨Memory.wf_put h.1 k v, Memory.within_put h.2 hk v⟩

theorem swapClosed_canonical (draw : Nat → Byte) : SwapClosed draw (·.Canonical 256) :=
  fun _ x y h => ⟨Memory.wf_swap h.1 draw _ _, Memory.within_swap h.2 draw x.isLt y.isLt⟩

end Sys2Proof.Machine
end

section
/-! O52, the loops of the commands: all of them but phase A only swap (41_key_schedule R84, 42_standard_cipher R93, R94,
43_simple_cipher R105), and phase A fills every index once because its stride is odd (R82). -/

namespace Sys2Proof.Machine

section
variable {draw : Nat → Byte} {Q : Memory → Prop} (closed : SwapClosed draw Q)
include closed

theorem prgaAfter_keeps {arr : Memory} (h : Q arr) (stride addend i j : Byte) (n : Nat) :
    Q (prgaAfter stride addend draw ⟨i, j, arr⟩ n).arr := by
  induction n with
  | zero => exact h
  | succ n ih => exact closed _ _ _ ih

theorem premixStep_keeps {p : Prga} (h : Q p.arr) (stride : Byte) (ivByte : Memory → Nat → Byte) (ivLength : Nat) :
    Q (premixStep stride ivByte ivLength draw p).arr := closed _ _ _ h

theorem mixTable_keeps {table : Memory} (h : Q table) (stride : Byte) (keyByte : Nat → Byte) :
    Q (mixTable stride keyByte draw table) := by
  obtain ⟨w, hw, e⟩ := mixTable_induct (fun _ w => Q w.table) stride keyByte draw table h
    fun _ _ _ ih => closed _ _ _ ih
  exact e ▸ hw

end

/-- Once it is copied, WORK goes through swaps only (42_standard_cipher R91 to R94). -/
theorem Block.cryptStream_keeps {b : Block} {Q : Memory → Prop} (closed : SwapClosed (b.draw .work) Q)
    (h : Q b.workCopy) : Q b.cryptStream.gen.arr := by
  rw [Block.cryptStream_gen]
  have premixed : Q b.premix.arr := by
    refine b.premix_induct (fun _ p => Q p.arr) ?_ fun _ _ _ ih => premixStep_keeps closed ih _ _ _
    dsimp only
    exact h
  exact prgaAfter_keeps closed premixed _ _ _ _ _

theorem Block.cryptContStream_keeps {b : Block} {Q : Memory → Prop} (closed : SwapClosed (b.draw .work) Q)
    (h : Q b.work) : Q b.cryptContStream.gen.arr := by
  rw [Block.cryptContStream_gen]
  exact prgaAfter_keeps closed h _ _ _ _ _

theorem Block.scryptStream_keeps {b : Block} {Q : Memory → Prop} (closed : SwapClosed (b.draw .table) Q)
    (h : Q b.table) : Q b.scryptStream.gen.arr := by
  rw [Block.scryptStream_gen]
  exact prgaAfter_keeps closed h _ _ _ _ _

theorem Block.scryptContStream_keeps {b : Block} {Q : Memory → Prop} (closed : SwapClosed (b.draw .table) Q)
    (h : Q b.table) : Q b.scryptContStream.gen.arr := by
  rw [Block.scryptContStream_gen]
  exact prgaAfter_keeps closed h _ _ _ _ _

/-- Both branches of the candidate are odd: an even byte plus 57 is odd, and 96 is even (40_selector R73). -/
theorem selectorCandidate_odd (b : Byte) : (selectorCandidate b).toNat % 2 = 1 := by
  have parity (n : Nat) : (BitVec.ofNat 8 (n ^^^ 96)).toNat % 2 = n % 2 := by
    rw [BitVec.toNat_ofNat, Nat.mod_mod_of_dvd _ (by decide), Nat.xor_mod_two_eq]
    omega
  have lowBit : b.getLsbD 0 = decide (b.toNat % 2 = 1) := by simp [BitVec.getLsbD]
  rw [selectorCandidate, parity, lowBit]
  simp only [decide_eq_true_eq]
  split <;> omega

/-- The selector's value is odd, whatever the previous one (40_selector R74). -/
theorem cs_odd (b : Byte) (p : Word) : (cs b p).toNat % 2 = 1 := by
  have candidate := selectorCandidate_odd b
  unfold cs
  dsimp only
  split
  · rw [BitVec.toNat_add]
    have two : (2 : Byte).toNat = 2 := rfl
    omega
  · exact candidate

/-- An odd stride visits 256 different positions before it repeats one (40_selector R77). -/
theorem ofNat_mul_stride_inj {stride : Byte} (odd : stride.toNat % 2 = 1) {m n : Nat} (hm : m < 256) (hn : n < 256)
    (h : BitVec.ofNat 8 (m + 1) * stride = BitVec.ofNat 8 (n + 1) * stride) : m = n := by
  have modulo : (m + 1) * stride.toNat ≡ (n + 1) * stride.toNat [MOD 256] := by
    simpa [Nat.ModEq, BitVec.toNat_mul] using congrArg BitVec.toNat h
  have coprime : Nat.gcd 256 stride.toNat = 1 :=
    Nat.Coprime.pow_left 8 (Nat.coprime_two_left.mpr (Nat.odd_iff.mpr odd))
  have same := Nat.ModEq.cancel_right_of_coprime coprime modulo
  unfold Nat.ModEq at same
  omega

/-- Phase A's state after `n` iterations (41_key_schedule R82): position `n * stride`, and each value so far still where it
was put. -/
def FilledUpTo (stride : Byte) (draw : Nat → Byte) (n : Nat) (w : Fill) : Prop :=
  w.pos = BitVec.ofNat 8 n * stride ∧
  ∀ m, m < n → w.table.read draw (BitVec.ofNat 8 (m + 1) * stride).toNat = BitVec.ofNat 8 m

theorem filledUpTo_fillStep {stride : Byte} (odd : stride.toNat % 2 = 1) {draw : Nat → Byte} {n : Nat} {w : Fill}
    (hn : n < 256) (h : FilledUpTo stride draw n w) : FilledUpTo stride draw (n + 1) (fillStep stride n w) := by
  obtain ⟨pos, filled⟩ := h
  have pos' : w.pos + stride = BitVec.ofNat 8 (n + 1) * stride := by
    rw [pos, BitVec.ofNat_add, BitVec.add_mul, BitVec.one_mul]
  refine ⟨pos', fun m hm => ?_⟩
  simp only [fillStep, pos', Memory.read_put]
  by_cases last : m = n
  · rw [last, if_pos rfl]
  · rw [if_neg fun h => last (ofNat_mul_stride_inj odd (by omega) hn (BitVec.toNat_inj.mp h)), filled m (by omega)]

/-- Phase A with an odd stride leaves a permutation, whatever TABLE held (41_key_schedule R82). -/
theorem fillTable_permutation {stride : Byte} (odd : stride.toNat % 2 = 1) (draw : Nat → Byte) (table : Memory) :
    (fillTable stride table).Permutation draw := by
  obtain ⟨w, ⟨-, filled⟩, e⟩ := fillTable_induct (FilledUpTo stride draw) stride table
    ⟨by simp, fun m hm => absurd hm (Nat.not_lt_zero m)⟩ fun _ _ hn h => filledUpTo_fillStep odd hn h
  rw [e]
  refine Memory.permutation_of_surjective fun v => ⟨BitVec.ofNat 8 (v.toNat + 1) * stride, ?_⟩
  rw [Memory.contents, filled v.toNat v.isLt, BitVec.ofNat_toNat, BitVec.setWidth_eq]

theorem fillTable_canonical {table : Memory} (h : table.Canonical 256) (stride : Byte) :
    (fillTable stride table).Canonical 256 := by
  obtain ⟨w, hw, e⟩ := fillTable_induct (fun _ w => w.table.Canonical 256) stride table h
    fun _ _ _ ih => ih.put (BitVec.isLt _) _
  exact e ▸ hw

/-- SCHEDULE computes a permutation (41_key_schedule R81). -/
theorem Block.scheduledTable_permutation (b : Block) : b.scheduledTable.Permutation (b.draw .table) := by
  rw [Block.scheduledTable]
  exact mixTable_keeps (swapClosed_permutation _) (fillTable_permutation (cs_odd _ _) _ _) _ _

theorem Block.scheduledTable_canonical {b : Block} (h : b.table.Canonical 256) : b.scheduledTable.Canonical 256 := by
  rw [Block.scheduledTable]
  exact mixTable_keeps (swapClosed_canonical _) (fillTable_canonical h _) _ _

/-- CRYPT leaves WORK a permutation when TABLE is one (42_standard_cipher R91). -/
theorem Block.cryptStream_permutation {b : Block} (h : b.table.Permutation (b.draw .table)) :
    b.cryptStream.gen.arr.Permutation (b.draw .work) :=
  Block.cryptStream_keeps (swapClosed_permutation _) (h.of_same fun k hk => b.read_workCopy _ k hk)

end Sys2Proof.Machine
end

section
/-! O52 to O54, the invariant of the block and the operations that leave its arrays alone (10_state R39). -/

namespace Sys2Proof.Machine

/-- What `State.Inv` says, as a property of the block. -/
structure Block.Sound (b : Block) : Prop where
  consistent : b.Consistent
  capacity   : b.CapLegal
  pending    : b.PendingChecked
  memory     : b.MemoryWf
  aligned    : b.base % Config.apertureSize = 0

theorem State.inv_iff (s : State) : s.Inv ↔ s.block.Sound :=
  ⟨fun ⟨consistent, capacity, pending, memory, aligned⟩ => ⟨consistent, capacity, pending, memory, aligned⟩,
    fun ⟨consistent, capacity, pending, memory, aligned⟩ => ⟨consistent, capacity, pending, memory, aligned⟩⟩

theorem Ctx.code_ne_three (c : Ctx) : c.code ≠ 3 := by cases c <;> decide

theorem Block.pendingChecked_of_idle {b : Block} (h : b.seq = .idle) : b.PendingChecked :=
  fun i hi => by rw [h] at hi; cases hi

/-- A block just reset meets the invariant (70_reset R136). -/
theorem Block.sound_reset (p : Parameters) (epoch : Nat) (low : 1 ≤ p.dataCap) (high : p.dataCap ≤ 4096)
    (aligned : p.base % Config.apertureSize = 0) : (Block.reset p epoch).Sound where
  consistent := ⟨nofun, nofun, fun h => absurd rfl h, nofun, Ctx.code_ne_three _, fun _ => rfl⟩
  capacity := ⟨low, high⟩
  pending := Block.pendingChecked_of_idle rfl
  memory a := by
    rw [Block.reset_arr]
    exact ⟨Memory.wf_nil, Memory.within_nil _⟩
  aligned := aligned

/-- `b'` has the arrays of `b`, with the same draws, configuration, TV and CTX. -/
structure Block.SameContents (b b' : Block) : Prop where
  arr        : ∀ a, b'.arr a = b.arr a
  epoch      : b'.epoch = b.epoch
  parameters : b'.toParameters = b.toParameters
  tv         : b'.tv = b.tv
  ctx        : b'.ctx = b.ctx

/-- The rest of the invariant follows where an operation changes flags and registers only. -/
theorem Block.Sound.of_sameContents {b b' : Block} (h : b.Sound) (same : b.SameContents b')
    (busyNotDone : b'.isBusy = true → b'.done = false) (errcodeClear : b'.err = false → b'.errcode = 0)
    (pending : b'.PendingChecked) : b'.Sound := by
  obtain ⟨arr, epoch, parameters, tv, ctx⟩ := same
  have draw (a : Arr) : b'.draw a = b.draw a := by rw [Block.draw, Block.draw, epoch]
  have table : b'.table = b.table := arr .table
  have work : b'.work = b.work := arr .work
  have size (a : Arr) : b'.arrSize a = b.arrSize a := by
    cases a
    case data => exact congrArg Parameters.dataCap parameters
    all_goals rfl
  refine ⟨⟨busyNotDone, ?_, ?_, ?_, Ctx.code_ne_three _, errcodeClear⟩, ?_, pending, fun a => ?_, ?_⟩
  · rw [tv, table, draw]; exact h.consistent.tableValid
  · rw [ctx, tv]; exact h.consistent.ctxNeedsTv
  · rw [ctx, work, draw]; exact h.consistent.workValid
  · rw [Block.CapLegal, parameters]; exact h.capacity
  · rw [arr, size]; exact h.memory a
  · rw [parameters]; exact h.aligned

theorem Block.sameContents_capture (b : Block) (c : ErrCode) : b.SameContents (b.capture c) :=
  ⟨b.arr_capture c, rfl, rfl, rfl, rfl⟩

/-- A stored configuration register is no part of what the invariant reads of an idle block. -/
theorem Block.configured_keeps {b b' : Block} {v : Word} {r : Reg} (h : b.configured v r = some b') :
    b.SameContents b' ∧ b'.isBusy = b.isBusy ∧ b'.done = b.done ∧ b'.err = b.err ∧ b'.errcode = b.errcode := by
  cases r <;> cases h
  all_goals exact ⟨⟨fun a => by cases a <;> rfl, rfl, rfl, rfl, rfl⟩, rfl, rfl, rfl, rfl⟩

theorem Block.Sound.capture {b : Block} (h : b.Sound) (c : ErrCode) : (b.capture c).Sound :=
  h.of_sameContents (b.sameContents_capture c) h.consistent.busyNotDone nofun fun i hi =>
    (b.issueError_capture c i).trans (h.pending i hi)

theorem Block.Sound.clearDone {b : Block} (h : b.Sound) : b.clearDone.Sound :=
  h.of_sameContents ⟨b.arr_clearDone, rfl, rfl, rfl, rfl⟩ (fun _ => rfl) h.consistent.errcodeClear fun i hi =>
    (b.issueError_clearDone i).trans (h.pending i hi)

/-- Accepting a command whose checks pass (60_exceptions R120, step 8). -/
theorem Block.Sound.accepted {b : Block} (h : b.Sound) {i : Instr} (ok : b.issueError i = none) :
    Block.Sound { b.clearDone with seq := .busy i } :=
  h.of_sameContents ⟨fun a => by cases a <;> rfl, rfl, rfl, rfl, rfl⟩ (fun _ => rfl) h.consistent.errcodeClear
    fun j hj => by
      cases hj
      exact (b.issueError_accepted i i).trans ok

theorem Block.Sound.issue {b : Block} (h : b.Sound) (w : Word) : (b.issue w).Sound := by
  rcases b.issue_cases w with ⟨-, e⟩ | ⟨-, -, e⟩ | ⟨-, i, c, -, -, e⟩ | ⟨-, i, -, ok, e⟩
  · exact e ▸ h.capture _
  · exact e ▸ h.clearDone.capture _
  · exact e ▸ h.clearDone.capture _
  · exact e ▸ h.accepted ok

/-- A write to STATUS clears ERR and ERRCODE together, and DONE only to 0 (60_exceptions R125). -/
theorem Block.Sound.writeStatus {b : Block} (h : b.Sound) (v : Word) : (b.writeStatus v).Sound := by
  refine h.of_sameContents ⟨fun a => by cases a <;> rfl, rfl, rfl, rfl, rfl⟩ (fun busy => ?_) (fun clear => ?_)
    fun i hi => ?_
  · rw [Block.writeStatus_done, h.consistent.busyNotDone busy, Bool.false_and]
  · rw [Block.writeStatus_errcode]
    split
    · rfl
    · next kept =>
      rw [Block.writeStatus_err, Bool.eq_false_iff.mpr kept, Bool.not_false, Bool.and_true] at clear
      exact h.consistent.errcodeClear clear
  · exact (show (b.writeStatus v).issueError i = b.issueError i by cases i <;> rfl).trans (h.pending i hi)

theorem Block.Sound.writeInten {b : Block} (h : b.Sound) (v : Word) : (b.writeInten v).Sound :=
  h.of_sameContents ⟨fun a => by cases a <;> rfl, rfl, rfl, rfl, rfl⟩ h.consistent.busyNotDone
    h.consistent.errcodeClear fun i hi =>
      (show (b.writeInten v).issueError i = b.issueError i by cases i <;> rfl).trans (h.pending i hi)

theorem Block.Sound.configured {b b' : Block} (h : b.Sound) {v : Word} {r : Reg} (idle : b.seq = .idle)
    (stored : b.configured v r = some b') : b'.Sound := by
  obtain ⟨same, busy, done, err, errcode⟩ := Block.configured_keeps stored
  refine h.of_sameContents same ?_ ?_ (Block.pendingChecked_of_idle ?_)
  · rw [busy, done]; exact h.consistent.busyNotDone
  · rw [err, errcode]; exact h.consistent.errcodeClear
  · rw [← Block.not_isBusy_iff, busy, Block.isBusy_idle idle]

end Sys2Proof.Machine
end

section
/-! O52, what writes the arrays: window writes and the engine steps of the commands (20_memory R50, 70_reset R140). -/

namespace Sys2Proof.Machine

@[simp] theorem Block.invalidate_arr (b : Block) (a c : Arr) : (b.invalidate a).arr c = b.arr c := by
  cases a <;> cases c <;> rfl

@[simp] theorem Block.invalidate_arrSize (b : Block) (a c : Arr) : (b.invalidate a).arrSize c = b.arrSize c := by
  cases a <;> cases c <;> rfl

/-- A window write keeps every array canonical (20_memory R47). -/
theorem Block.memoryWf_storeWindow {b : Block} (h : b.MemoryWf) (a : Arr) (k n : Nat) (v : Word) :
    (b.storeWindow a k n v).MemoryWf := by
  intro c
  rw [Block.storeWindow, Block.invalidate_arr, Block.invalidate_arrSize, Block.writeLanes_eq, Block.arrSize_setArr]
  obtain ⟨wf, within⟩ := h c
  by_cases hc : c = a
  · subst hc
    rw [Block.arr_setArr_same]
    exact ⟨lanesWritten_wf wf _ k n v, lanesWritten_within within k n v⟩
  · rw [Block.arr_setArr_other b _ hc]
    exact ⟨wf, within⟩

/-- A window write while idle: a TABLE write ends TV and CTX, and the others touch no permutation (44_table_management
R111). -/
theorem Block.Sound.storeWindow {b : Block} (h : b.Sound) {a : Arr} (idle : b.seq = .idle) (host : a ≠ .work)
    (k n : Nat) (v : Word) : (b.storeWindow a k n v).Sound := by
  have memory := Block.memoryWf_storeWindow h.memory a k n v
  rw [Block.storeWindow, Block.writeLanes_eq] at memory ⊢
  cases a
  case work => exact absurd rfl host
  case table =>
    exact ⟨⟨h.consistent.busyNotDone, nofun, fun none => absurd rfl none, nofun, Ctx.code_ne_three _,
      h.consistent.errcodeClear⟩, h.capacity, Block.pendingChecked_of_idle idle, memory, h.aligned⟩
  all_goals
    exact ⟨⟨h.consistent.busyNotDone, h.consistent.tableValid, h.consistent.ctxNeedsTv, h.consistent.workValid,
      Ctx.code_ne_three _, h.consistent.errcodeClear⟩, h.capacity, Block.pendingChecked_of_idle idle, memory, h.aligned⟩

/-- Every host transaction keeps the invariant. -/
theorem Block.Sound.transact {b : Block} (h : b.Sound) (off : Nat) (t : Transaction) : (b.transact off t).1.Sound := by
  generalize hb : (b.transact off t).1 = b'
  have e := b.transact_effect off t
  rw [hb] at e
  cases e with
  | nothing => exact h
  | busyAccess => exact h.capture _
  | status v => exact h.writeStatus v
  | inten v => exact h.writeInten v
  | configure r v _ idle stored => exact h.configured idle stored
  | store a k n v idle host => exact h.storeWindow idle host k n v
  | issue w => exact h.issue w

/-- DATA_LEN of a cipher command whose checks pass is within DATA (60_exceptions R120, step 7). -/
theorem Block.dataLength_le {b : Block} (h : b.lengthError = none) : b.dataLength ≤ b.dataCap := by
  unfold Block.lengthError at h
  split at h
  · cases h
  · next within => exact Nat.not_lt.mp within

theorem Block.of_freshError_none {b : Block} (h : b.freshError = none) : b.tv = true ∧ b.lengthError = none := by
  unfold Block.freshError at h
  split at h
  · next tv => exact ⟨tv, h⟩
  · cases h

theorem Block.lengthError_of_contError_none {b : Block} {c : Ctx} (h : b.contError c = none) :
    b.lengthError = none := by
  unfold Block.contError at h
  split at h
  · exact h
  · cases h

@[simp] theorem performTcommit_ctx (b : Block) : (performTcommit b).ctx = b.ctx := by
  rcases performTcommit_cases b with ⟨-, e⟩ | ⟨-, e⟩
  all_goals rw [e]
  rfl

/-- TCOMMIT writes no array (44_table_management R113). -/
theorem performTcommit_arr (b : Block) (a : Arr) : (performTcommit b).arr a = b.arr a := by
  rcases performTcommit_cases b with ⟨-, e⟩ | ⟨-, e⟩
  · rw [e]; cases a <;> rfl
  · rw [e, Block.arr_capture]

@[simp] theorem performTcommit_table (b : Block) : (performTcommit b).table = b.table := performTcommit_arr b .table
@[simp] theorem performTcommit_data (b : Block) : (performTcommit b).data = b.data := performTcommit_arr b .data
@[simp] theorem performTcommit_work (b : Block) : (performTcommit b).work = b.work := performTcommit_arr b .work

theorem performOf_epoch (i : Instr) (b : Block) : (performOf i b).epoch = b.epoch := (performOf_hostOwned i b).2.1

theorem performOf_toParameters (i : Instr) (b : Block) : (performOf i b).toParameters = b.toParameters :=
  (performOf_hostOwned i b).1

/-- What each command makes of CTX (10_state R38, 41_key_schedule R86, 42_standard_cipher R95, 43_simple_cipher R106). -/
def ctxAfter (i : Instr) (c : Ctx) : Ctx :=
  match i with
  | .schedule => .none
  | .crypt    => .std
  | .scrypt   => .simple
  | _         => c

theorem performOf_ctx (i : Instr) (b : Block) : (performOf i b).ctx = ctxAfter i b.ctx := by
  cases i
  case tcommit => exact performTcommit_ctx b
  all_goals rfl

/-- No command clears TV (44_table_management R115). -/
theorem performOf_tv_of_tv (i : Instr) {b : Block} (h : b.tv = true) : (performOf i b).tv = true := by
  cases i
  case schedule => rfl
  case tcommit =>
    rcases performTcommit_cases b with ⟨-, e⟩ | ⟨-, e⟩ <;> rw [performOf, e]
    exact h
  all_goals exact h

theorem performOf_errcodeClear (i : Instr) {b : Block} (h : b.err = false → b.errcode = 0) :
    (performOf i b).err = false → (performOf i b).errcode = 0 := by
  cases i
  case tcommit =>
    rcases performTcommit_cases b with ⟨-, e⟩ | ⟨-, e⟩ <;> rw [performOf, e]
    · exact h
    · exact nofun
  all_goals exact h

section
variable {b : Block} (h : b.Sound) (i : Instr)
include h

/-- After every command TV = 1 still means that TABLE is a permutation: SCHEDULE computes one, TCOMMIT has tested for one,
SCRYPT only swaps. -/
theorem Block.Sound.table_performOf (valid : (performOf i b).tv = true) :
    (performOf i b).table.Permutation (b.draw .table) := by
  have before := h.consistent.tableValid
  cases i with
  | select | crypt | cryptCont => exact before valid
  | schedule =>
    rw [performOf, performSchedule_table]
    exact b.scheduledTable_permutation
  | scrypt =>
    rw [performOf, performScrypt_table]
    exact Block.scryptStream_keeps (swapClosed_permutation _) (before valid)
  | scryptCont =>
    rw [performOf, performScryptCont_table]
    exact Block.scryptContStream_keeps (swapClosed_permutation _) (before valid)
  | tcommit =>
    rcases performTcommit_cases b with ⟨tested, e⟩ | ⟨-, e⟩
    all_goals rw [performOf, e] at valid ⊢
    · exact Memory.permutation_of_isPermutation tested
    · exact before valid

theorem Block.Sound.table_canonical_performOf : (performOf i b).table.Canonical 256 := by
  have before : b.table.Canonical 256 := h.memory .table
  cases i with
  | select | crypt | cryptCont => exact before
  | schedule =>
    rw [performOf, performSchedule_table]
    exact Block.scheduledTable_canonical before
  | scrypt =>
    rw [performOf, performScrypt_table]
    exact Block.scryptStream_keeps (swapClosed_canonical _) before
  | scryptCont =>
    rw [performOf, performScryptCont_table]
    exact Block.scryptContStream_keeps (swapClosed_canonical _) before
  | tcommit =>
    rw [performOf, performTcommit_table]
    exact before

theorem Block.Sound.work_canonical_performOf : (performOf i b).work.Canonical 256 := by
  have before : b.work.Canonical 256 := h.memory .work
  cases i with
  | select | schedule | scrypt | scryptCont => exact before
  | crypt =>
    rw [performOf, performCrypt_work]
    exact Block.cryptStream_keeps (swapClosed_canonical _) (Block.workCopy_wf before)
  | cryptCont =>
    rw [performOf, performCryptCont_work]
    exact Block.cryptContStream_keeps (swapClosed_canonical _) before
  | tcommit =>
    rw [performOf, performTcommit_work]
    exact before

variable {i} (ok : b.issueError i = none)
include ok

/-- A context after a command still needs TV = 1: CRYPT and SCRYPT are let through with TV = 1 only (60_exceptions R120,
step 6). -/
theorem Block.Sound.ctxNeedsTv_performOf (context : (performOf i b).ctx ≠ .none) : (performOf i b).tv = true := by
  rw [performOf_ctx] at context
  have before := h.consistent.ctxNeedsTv
  refine performOf_tv_of_tv i ?_
  cases i with
  | schedule => exact absurd rfl context
  | crypt | scrypt => exact (Block.of_freshError_none ok).1
  | select | cryptCont | scryptCont | tcommit => exact before context

/-- In context STD WORK is a permutation after every command: CRYPT copies TABLE and then only swaps, as CRYPT.CONT does. -/
theorem Block.Sound.work_performOf (std : (performOf i b).ctx = .std) :
    (performOf i b).work.Permutation (b.draw .work) := by
  rw [performOf_ctx] at std
  have before := h.consistent.workValid
  cases i with
  | schedule | scrypt => cases std
  | select | scryptCont => exact before std
  | crypt =>
    rw [performOf, performCrypt_work]
    exact Block.cryptStream_permutation (h.consistent.tableValid (Block.of_freshError_none ok).1)
  | cryptCont =>
    rw [performOf, performCryptCont_work]
    exact Block.cryptContStream_keeps (swapClosed_permutation _) (before std)
  | tcommit =>
    rw [performOf, performTcommit_work]
    exact before std

/-- DATA lists no byte beyond its capacity: DATA_LEN was checked against it. -/
theorem Block.Sound.data_canonical_performOf : (performOf i b).data.Canonical b.dataCap := by
  obtain ⟨wf, within⟩ : b.data.Canonical b.dataCap := h.memory .data
  cases i with
  | select | schedule => exact ⟨wf, within⟩
  | crypt =>
    rw [performOf, performCrypt_data]
    refine ⟨Block.cryptStream_data_wf wf, ?_⟩
    exact applyKeystream_data_within within (Block.dataLength_le (Block.of_freshError_none ok).2)
  | cryptCont =>
    rw [performOf, performCryptCont_data]
    refine ⟨Block.cryptContStream_data_wf wf, ?_⟩
    exact applyKeystream_data_within within (Block.dataLength_le (Block.lengthError_of_contError_none ok))
  | scrypt =>
    rw [performOf, performScrypt_data]
    refine ⟨Block.scryptStream_data_wf wf, ?_⟩
    exact applyKeystream_data_within within (Block.dataLength_le (Block.of_freshError_none ok).2)
  | scryptCont =>
    rw [performOf, performScryptCont_data]
    refine ⟨Block.scryptContStream_data_wf wf, ?_⟩
    exact applyKeystream_data_within within (Block.dataLength_le (Block.lengthError_of_contError_none ok))
  | tcommit =>
    rw [performOf, performTcommit_data]
    exact ⟨wf, within⟩

theorem Block.Sound.memory_performOf : (performOf i b).MemoryWf := by
  obtain ⟨parameters, -, -, key, iv, -⟩ := performOf_hostOwned i b
  have size (a : Arr) : (performOf i b).arrSize a = b.arrSize a := by
    cases a
    case data => exact congrArg Parameters.dataCap parameters
    all_goals rfl
  intro a
  rw [size]
  cases a with
  | key => exact by rw [Block.arr, key]; exact h.memory .key
  | iv => exact by rw [Block.arr, iv]; exact h.memory .iv
  | table => exact h.table_canonical_performOf i
  | data => exact h.data_canonical_performOf ok
  | work => exact h.work_canonical_performOf i

/-- The engine step of a command whose checks passed keeps the invariant (70_reset R140). -/
theorem Block.Sound.complete_performOf : (performOf i b).complete.Sound := by
  have parameters := performOf_toParameters i b
  have draw (a : Arr) : (performOf i b).complete.draw a = b.draw a := by
    rw [Block.draw, Block.draw, Block.complete_epoch, performOf_epoch]
  refine ⟨⟨nofun, ?_, h.ctxNeedsTv_performOf ok, ?_, Ctx.code_ne_three _,
    performOf_errcodeClear i h.consistent.errcodeClear⟩, ?_, Block.pendingChecked_of_idle rfl, fun a => ?_, ?_⟩
  · rw [draw]; exact h.table_performOf i
  · rw [draw]; exact h.work_performOf ok
  · rw [Block.CapLegal, Block.complete_toParameters, parameters]; exact h.capacity
  · rw [Block.arr_complete]; exact h.memory_performOf ok a
  · rw [Block.complete_toParameters, parameters]; exact h.aligned

end

/-- The run of a command, presented or pending, keeps the invariant. -/
theorem Block.Sound.runCommand {b : Block} (h : b.Sound) {i : Instr} (ready : b.seq = .idle ∨ b.seq = .busy i) :
    (b.runCommand i (performOf i)).Sound := by
  rcases ready with idle | busy
  · cases he : b.issueError i with
    | none =>
      rw [Block.runCommand_of_accepted idle he]
      exact (h.accepted he).complete_performOf ((b.issueError_accepted i i).trans he)
    | some c =>
      rw [Block.runCommand_of_rejected idle he]
      exact h.clearDone.capture c
  · rw [Block.runCommand_of_busy busy]
    exact h.complete_performOf (h.pending i busy)

/-- A reset at any time leads to a block that meets the invariant again (70_reset R136, R137). -/
theorem Block.Sound.reset {b : Block} (h : b.Sound) (epoch : Nat) : (Block.reset b.toParameters epoch).Sound := by
  obtain ⟨low, high⟩ := h.capacity
  exact Block.sound_reset _ _ low high h.aligned

/-- Settles O52: each kind of step keeps the invariant of the block, and the invariant speaks of the block only. -/
theorem stepKeepsTheInvariant : Obligations.StepKeepsTheInvariant := by
  intro s t inv hs
  rw [State.inv_iff] at inv ⊢
  exact step_keeps (P := Block.Sound) (fun _ off t h => h.transact off t) (fun _ _ ready h => h.runCommand ready)
    (fun b h => h.reset (b.epoch + 1)) inv hs

/-- Settles O53: nothing is listed, TV and CTX are clear and no command is pending; the reference capacity is legal. -/
theorem resetMeetsTheInvariant : Obligations.ResetMeetsTheInvariant := by
  refine ⟨fun p epoch _ _ low high aligned => (State.inv_iff _).mpr (Block.sound_reset p epoch low high aligned),
    (State.inv_iff _).mpr (Block.sound_reset _ _ ?_ ?_ rfl)⟩
  all_goals decide

end Sys2Proof.Machine
end

section
/-! O40, O41 and O54: the registers at their offsets (20_memory R44), and the word STATUS reads as (10_state R21). -/

namespace Sys2Proof.Machine

@[simp] theorem regionAt_regOffset (cap : Nat) (r : Reg) : regionAt cap (regOffset r) = .register r := by cases r <;> rfl

@[simp] theorem accessOk_regOffset (r : Reg) : accessOk (regOffset r) 4 = true := by cases r <;> rfl

/-- A 32-bit read at a register's offset (20_memory R44, R49). -/
theorem Block.hostRead_regOffset (b : Block) (r : Reg) : b.hostRead (regOffset r) 4 = (b, .okay (b.readReg r)) := by
  rw [Block.hostRead, accessOk_regOffset, if_pos rfl, regionAt_regOffset]

/-- A 32-bit write at a register's offset (20_memory R44, R50). -/
theorem Block.hostWrite_regOffset (b : Block) (r : Reg) (v : Word) :
    b.hostWrite (regOffset r) 4 v = (b.writeReg v r, .okay 0) := by
  rw [Block.hostWrite, accessOk_regOffset, if_pos rfl, regionAt_regOffset]

/-- An idle block stores a configuration register (20_memory R50). -/
theorem Block.configure_of_idle {b : Block} (idle : b.seq = .idle) (b' : Block) : b.configure b' = b' := by
  rw [Block.configure, Block.isBusy_idle idle, if_neg Bool.false_ne_true]

/-- STATUS as a number, field by field (10_state R21). -/
theorem Block.statusWord_toNat (b : Block) :
    b.statusWord.toNat = b.isBusy.toNat + 2 * b.done.toNat + 4 * b.err.toNat + 8 * b.tv.toNat + 16 * b.ctx.code.toNat := by
  unfold Block.statusWord
  generalize b.isBusy = busy, b.done = done, b.err = err, b.tv = tv, b.ctx.code = code
  revert busy done err tv code
  decide

/-- INTEN as a number, field by field (10_state R23). -/
theorem Block.intenWord_toNat (b : Block) : b.intenWord.toNat = b.doneIe.toNat + 2 * b.errIe.toNat := by
  unfold Block.intenWord
  generalize b.doneIe = done, b.errIe = err
  revert done err
  decide

/-- Settles O40: every register read is the read at its offset, and STATUS and INTEN are sums of their fields. -/
theorem registerReadsReturnTheRegisters : Obligations.RegisterReadsReturnTheRegisters := by
  intro b
  have read := b.hostRead_regOffset
  refine ⟨read .id, read .caps, read .cmd, ⟨b.statusWord, read .status, ?_⟩, read .errcode,
    ⟨b.intenWord, read .inten, ?_⟩, read .keyLen, read .ivLen, read .counter, read .nonce, read .dataLen, read .selIn,
    read .selPrev, read .selOut⟩
  · rw [Block.statusWord_toNat]
    congr 1
    · cases b.isBusy <;> cases b.done <;> cases b.err <;> cases b.tv <;> rfl
    · cases b.ctx <;> rfl
  · rw [Block.intenWord_toNat]
    cases b.doneIe <;> cases b.errIe <;> rfl

/-- Settles O41: the seven configuration registers of an idle block, and the four read-only offsets. -/
theorem registerWritesStoreOrAreIgnored : Obligations.RegisterWritesStoreOrAreIgnored := by
  intro b v
  have write := fun r => b.hostWrite_regOffset r v
  refine ⟨fun idle => ?_, ?_⟩
  · have stored (r : Reg) (b' : Block) (h : b.writeReg v r = b.configure b') :
        b.hostWrite (regOffset r) 4 v = (b', ⟨.okay, 0⟩) := by
      rw [write, h, Block.configure_of_idle idle]
      rfl
    exact ⟨stored .keyLen _ rfl, stored .ivLen _ rfl, stored .counter _ rfl, stored .nonce _ rfl, stored .dataLen _ rfl,
      stored .selIn _ (by rw [BitVec.ofNat_toNat]; rfl), stored .selPrev _ rfl⟩
  · rintro off (rfl | rfl | rfl | rfl)
    exacts [write .id, write .caps, write .errcode, write .selOut]

/-- A reset block meets the invariant and every step keeps it, so every reachable block does. -/
theorem Block.Reachable.sound {b : Block} (h : b.Reachable) : b.Sound := by
  induction h with
  | reset s atReset =>
    obtain ⟨block, ⟨low, high⟩, aligned⟩ := atReset
    exact block ▸ Block.sound_reset _ _ low high aligned
  | step s t _ hs ih => exact (State.inv_iff t).mp (stepKeepsTheInvariant s t ((State.inv_iff s).mpr ih) hs)

/-- Settles O54: the invariant holds of every reachable block; the CTX field of STATUS is the code of `ctx`. -/
theorem reachableStatesAreConsistent : Obligations.ReachableStatesAreConsistent := by
  intro b reachable
  obtain ⟨busyNotDone, tableValid, ctxNeedsTv, workValid, ctxNotThree, errcodeClear⟩ := reachable.sound.consistent
  refine ⟨busyNotDone, tableValid, ctxNeedsTv, workValid, ?_, errcodeClear⟩
  have small (x : Bool) : x.toNat ≤ 1 := Bool.toNat_le x
  have notThree : b.ctx.code.toNat ≠ 3 := fun h => ctxNotThree (BitVec.eq_of_toNat_eq h)
  have := small b.isBusy
  have := small b.done
  have := small b.err
  have := small b.tv
  have := b.ctx.code.isLt
  rw [Block.statusWord_toNat]
  omega

end Sys2Proof.Machine
end

section
/-! O57: all that one step can do to the block, with the line or the command that does it. -/

namespace Sys2Proof.Machine

theorem eq_of_regionAt_register {cap off : Nat} {r : Reg} (h : regionAt cap off = .register r) : off = regOffset r := by
  unfold regionAt at h
  split at h
  · cases found : allRegs.find? fun r => regOffset r == off with
    | none => rw [found] at h; cases h
    | some q =>
      rw [found] at h
      cases h
      have offset := List.find?_some found
      exact (beq_iff_eq.mp offset).symm
  · repeat' split at h
    all_goals cases h

theorem tableWindow_of_regionAt {cap off k : Nat} (h : regionAt cap off = .window .table k) :
    0x300 ≤ off ∧ off < 0x400 := by
  unfold regionAt at h
  repeat' split at h
  all_goals simp only [reduceCtorEq, Region.window.injEq, false_and] at h
  omega

/-- A register access is 32 bits wide (20_memory R45). -/
theorem eq_four_of_accessOk {r : Reg} {n : Nat} (h : accessOk (regOffset r) n = true) : n = 4 := by
  have low : regOffset r < 0x100 := by cases r <;> decide
  rw [accessOk, if_pos low, Bool.and_eq_true, beq_iff_eq] at h
  exact h.1

/-- All that a host write can do, with its offset. -/
theorem Block.hostWrite_cases (b : Block) (off n : Nat) (v : Word) :
    (b.hostWrite off n v).1 = b ∨
    (∃ r, off = regOffset r ∧ n = 4 ∧ (b.hostWrite off n v).1 = b.writeReg v r) ∨
    (b.isBusy = true ∧ (b.hostWrite off n v).1 = b.capture .busyAccess) ∨
    (∃ a k, regionAt b.dataCap off = .window a k ∧ b.seq = .idle ∧
      (b.hostWrite off n v).1 = b.storeWindow a k n v) := by
  unfold Block.hostWrite
  cases legal : accessOk off n with
  | false => exact .inl rfl
  | true =>
    cases region : regionAt b.dataCap off with
    | reserved => exact .inl rfl
    | register r =>
      have offset := eq_of_regionAt_register region
      exact .inr (.inl ⟨r, offset, eq_four_of_accessOk (offset ▸ legal), rfl⟩)
    | window a k =>
      cases busy : b.isBusy with
      | true => exact .inr (.inr (.inl ⟨rfl, rfl⟩))
      | false => exact .inr (.inr (.inr ⟨a, k, rfl, (b.not_isBusy_iff).mp busy, rfl⟩))

/-- All that a host read can do to the block (20_memory R49). -/
theorem Block.hostRead_cases (b : Block) (off n : Nat) :
    (b.hostRead off n).1 = b ∨ (b.isBusy = true ∧ (b.hostRead off n).1 = b.capture .busyAccess) := by
  unfold Block.hostRead
  cases accessOk off n with
  | false => exact .inl rfl
  | true =>
    cases regionAt b.dataCap off with
    | register r => exact .inl rfl
    | reserved => exact .inl rfl
    | window a k =>
      cases b.isBusy with
      | true => exact .inr ⟨rfl, rfl⟩
      | false => exact .inl rfl

@[simp] theorem Block.issue_ctx (b : Block) (w : Word) : (b.issue w).ctx = b.ctx := by
  rcases b.issue_cases w with ⟨-, e⟩ | ⟨-, -, e⟩ | ⟨-, i, c, -, -, e⟩ | ⟨-, i, -, -, e⟩
  all_goals rw [e]; rfl

theorem Block.configure_ctx {b b' : Block} (h : b'.ctx = b.ctx) : (b.configure b').ctx = b.ctx := by
  unfold Block.configure
  split
  · rfl
  · exact h

theorem Block.configure_seq {b b' : Block} (h : b'.seq = b.seq) : (b.configure b').seq = b.seq := by
  unfold Block.configure
  split
  · rfl
  · exact h

/-- No register write changes CTX (10_state R38). -/
theorem Block.writeReg_ctx (b : Block) (v : Word) (r : Reg) : (b.writeReg v r).ctx = b.ctx := by
  cases r
  case cmd => exact b.issue_ctx v
  case keyLen | ivLen | counter | nonce | dataLen | selIn | selPrev => exact Block.configure_ctx rfl
  all_goals rfl

/-- No register write but one to CMD changes SEQ (10_state R17). -/
theorem Block.writeReg_seq (b : Block) (v : Word) {r : Reg} (h : r ≠ .cmd) : (b.writeReg v r).seq = b.seq := by
  cases r
  case cmd => exact absurd rfl h
  case keyLen | ivLen | counter | nonce | dataLen | selIn | selPrev => exact Block.configure_seq rfl
  all_goals rfl

theorem Block.storeWindow_seq (b : Block) (a : Arr) (k n : Nat) (v : Word) : (b.storeWindow a k n v).seq = b.seq := by
  rw [Block.storeWindow, Block.writeLanes_eq]
  cases a <;> rfl

theorem Block.storeWindow_ctx (b : Block) (a : Arr) (k n : Nat) (v : Word) :
    (b.storeWindow a k n v).ctx = if a = .table then .none else b.ctx := by
  rw [Block.storeWindow, Block.writeLanes_eq]
  cases a <;> rfl

/-- A transaction that changes CTX is a write to the TABLE window of an idle block, and ends the context
(44_table_management R111). -/
theorem Block.transact_ctx {b : Block} {off : Nat} {t : Transaction} (h : (b.transact off t).1.ctx ≠ b.ctx) :
    b.seq = .idle ∧ (b.transact off t).1.ctx = .none ∧ (∃ n v, t = .memWrite n v) ∧ 0x300 ≤ off ∧ off < 0x400 := by
  cases t with
  | memRead n =>
    refine absurd ?_ h
    rcases b.hostRead_cases off n with e | ⟨-, e⟩
    all_goals rw [Block.transact, e]
    rfl
  | memWrite n v =>
    rw [Block.transact] at h ⊢
    rcases b.hostWrite_cases off n v with e | ⟨r, -, -, e⟩ | ⟨-, e⟩ | ⟨a, k, region, idle, e⟩
    all_goals rw [e] at h ⊢
    · exact absurd rfl h
    · exact absurd (b.writeReg_ctx v r) h
    · exact absurd rfl h
    · rw [Block.storeWindow_ctx] at h ⊢
      split at h
      · next table => exact ⟨idle, if_pos table, ⟨n, v, rfl⟩, tableWindow_of_regionAt (table ▸ region)⟩
      · exact absurd rfl h

/-- A transaction that makes a command pending is a 32-bit write of its word to CMD (30_encoding R65). -/
theorem Block.transact_accepts {b : Block} {off : Nat} {t : Transaction} {i : Instr} (idle : b.seq = .idle)
    (busy : (b.transact off t).1.seq = .busy i) :
    ∃ w, off = regOffset .cmd ∧ t = .memWrite 4 w ∧ decode w = .command i := by
  have still {b' : Block} (e : b'.seq = b.seq) (h : b'.seq = .busy i) : False := by
    rw [e, idle] at h; cases h
  cases t with
  | memRead n =>
    rcases b.hostRead_cases off n with e | ⟨-, e⟩
    all_goals rw [Block.transact, e] at busy
    · exact (still rfl busy).elim
    · exact (still (b.capture_seq _) busy).elim
  | memWrite n v =>
    rw [Block.transact] at busy
    rcases b.hostWrite_cases off n v with e | ⟨r, offset, size, e⟩ | ⟨-, e⟩ | ⟨a, k, -, -, e⟩
    all_goals rw [e] at busy
    · exact (still rfl busy).elim
    · by_cases cmd : r = .cmd
      · subst cmd size
        refine ⟨v, offset, rfl, ?_⟩
        rcases b.issue_cases v with ⟨-, e⟩ | ⟨-, -, e⟩ | ⟨-, j, c, -, -, e⟩ | ⟨-, j, word, -, e⟩
        all_goals rw [Block.writeReg, e] at busy
        iterate 3 exact (still rfl busy).elim
        cases busy
        exact word
      · exact (still (b.writeReg_seq v cmd) busy).elim
    · exact (still (b.capture_seq _) busy).elim
    · exact (still (b.storeWindow_seq a k n v) busy).elim

/-- A host transaction that makes a command pending presents that command (20_memory R57). -/
theorem State.presentedCommand_of_accepted {s : State} {op : ScriptOp} {off : Nat} {i : Instr}
    (idle : s.block.seq = .idle) (line : s.master.current = some op)
    (inside : blockOffset s.block.base (scriptAddress op) = some off)
    (busy : (s.block.transact off (scriptTransaction op)).1.seq = .busy i) : s.presentedCommand = some i := by
  obtain ⟨w, rfl, write, word⟩ := Block.transact_accepts idle busy
  cases op with
  | read addr n => cases write
  | bnz addr mask target => cases write
  | write addr n v =>
    cases write
    have presented : s.commandWord = some w := by
      rw [State.commandWord, line]
      exact if_pos inside
    rw [State.presentedCommand, Block.isBusy_idle idle, if_neg Bool.false_ne_true, presented, Option.bind_some, word]
    rfl

/-- All the effects a host, prompt or engine move can have on the block, each with the line or the command behind it
(70_reset R141). -/
inductive MoveEffect (s : State) : Block → Prop where
  | nothing : MoveEffect s s.block
  | host (op : ScriptOp) (off : Nat) (line : s.master.current = some op)
      (inside : blockOffset s.block.base (scriptAddress op) = some off) :
      MoveEffect s (s.block.transact off (scriptTransaction op)).1
  | run (i : Instr) (ready : s.block.seq = .busy i ∨ s.presentedCommand = some i) :
      MoveEffect s (s.block.runCommand i (performOf i))
  | hostThenRun (i : Instr) (off : Nat) (t : Transaction) (busy : s.block.seq = .busy i) :
      MoveEffect s ((s.block.transact off t).1.runCommand i (performOf i))

/-- The order of moves to come is no part of a move's effect. -/
theorem MoveEffect.of_schedule {s : State} {schedule : List Move} {b : Block}
    (h : MoveEffect { s with schedule := schedule } b) : MoveEffect s b := by
  cases h with
  | nothing => exact .nothing
  | host op off line inside => exact .host op off line inside
  | run i ready => exact .run i ready
  | hostThenRun i off t busy => exact .hostThenRun i off t busy

theorem moveEffect_hostMove {s t : State} (hs : s.hostMove = .next t) : MoveEffect s t.block := by
  rcases s.hostMove_cases with ⟨-, e⟩ | ⟨op, -, -, e⟩ | ⟨op, off, line, inside, e⟩
  all_goals rw [e] at hs; cases hs
  · exact .nothing
  · exact .host op off line inside

theorem engineMove_block {s t : State} (hs : s.engineMove = .next t) :
    (s.block.seq = .idle ∧ t.block = s.block) ∨
    (∃ i, s.block.seq = .busy i ∧ t.block = s.block.runCommand i (performOf i)) := by
  rcases s.engineMove_cases with ⟨idle, e⟩ | ⟨i, busy, e⟩
  · rw [e] at hs
    cases hs
    exact .inl ⟨idle, rfl⟩
  · rw [e, exec_eq] at hs
    cases hs
    exact .inr ⟨i, busy, rfl⟩

theorem moveEffect_engineMove {s t : State} (hs : s.engineMove = .next t) : MoveEffect s t.block := by
  rcases engineMove_block hs with ⟨-, e⟩ | ⟨i, busy, e⟩
  · exact e ▸ .nothing
  · exact e ▸ .run i (.inl busy)

/-- A transaction leaves a pending command pending (20_memory R51). -/
theorem Block.transact_seq_of_busy {b : Block} {i : Instr} (busy : b.seq = .busy i) (off : Nat) (t : Transaction) :
    (b.transact off t).1.seq = .busy i := by
  obtain ⟨done, err, errcode, doneIe, errIe, e⟩ := Block.transact_busy busy off t
  rw [e]
  exact busy

/-- A prompt move is one of the others, or a transaction while a command is pending and then that command: a command that
the host makes pending is a presented one. -/
theorem moveEffect_promptMove {s t : State} (hs : s.promptMove = .next t) : MoveEffect s t.block := by
  rcases s.promptMove_cases with ⟨i, presented, e⟩ | ⟨unpresented, s', hhost, e⟩ | ⟨-, -, e⟩
  all_goals rw [e] at hs
  · rw [exec_eq] at hs
    cases hs
    exact .run i (.inr presented)
  · rcases s.hostMove_cases with ⟨-, e⟩ | ⟨op, -, -, e⟩ | ⟨op, off, line, inside, e⟩
    all_goals rw [e] at hhost; cases hhost
    · exact moveEffect_engineMove hs
    · rcases engineMove_block hs with ⟨-, e⟩ | ⟨i, accepted, e⟩
      · exact e ▸ .host op off line inside
      · rw [e]
        cases before : s.block.seq with
        | idle =>
          rw [State.presentedCommand_of_accepted before line inside accepted] at unpresented
          cases unpresented
        | busy j =>
          cases (Block.transact_seq_of_busy before off (scriptTransaction op)).symm.trans accepted
          exact .hostThenRun i off _ before
  · cases hs

/-- The one case split of the step function that says which line or command is behind each effect. -/
theorem step_effect {s t : State} (hs : step s = .next t) :
    (s.nextMove.1 = .reset ∧ t.block = Block.reset s.block.toParameters (s.block.epoch + 1)) ∨
    MoveEffect s t.block := by
  unfold step at hs
  cases move : s.nextMove.1 with
  | reset =>
    rw [move] at hs
    cases hs
    exact .inl ⟨rfl, rfl⟩
  | host => rw [move] at hs; exact .inr (moveEffect_hostMove hs).of_schedule
  | prompt => rw [move] at hs; exact .inr (moveEffect_promptMove hs).of_schedule
  | engine => rw [move] at hs; exact .inr (moveEffect_engineMove hs).of_schedule

theorem eq_of_blockOffset {base addr off : Nat} (h : blockOffset base addr = some off) : addr = base + off := by
  unfold blockOffset at h
  split at h
  · next aperture =>
    obtain ⟨low, -⟩ := aperture
    cases h
    exact (Nat.add_sub_cancel' low).symm
  · cases h

/-- The host line behind a transaction that changes CTX is a write to an address of the TABLE window. -/
theorem tableWrite_of_transact_ctx {s : State} {op : ScriptOp} {off : Nat}
    (inside : blockOffset s.block.base (scriptAddress op) = some off)
    (write : ∃ n v, scriptTransaction op = .memWrite n v) (low : 0x300 ≤ off) (high : off < 0x400) :
    ∃ addr n v, op = .write addr n v ∧ s.block.base + 0x300 ≤ addr ∧ addr < s.block.base + 0x400 := by
  obtain ⟨n, v, write⟩ := write
  cases op with
  | read addr n => cases write
  | bnz addr mask target => cases write
  | write addr n v =>
    have address : addr = s.block.base + off := eq_of_blockOffset inside
    exact ⟨addr, n, v, rfl, by omega, by omega⟩

/-- A command that changes CTX is SCHEDULE, CRYPT or SCRYPT, and sets it to its own value (10_state R38). -/
theorem ctxAfter_of_ne {i : Instr} {c : Ctx} (h : ctxAfter i c ≠ c) :
    i = .schedule ∧ ctxAfter i c = .none ∨ i = .crypt ∧ ctxAfter i c = .std ∨ i = .scrypt ∧ ctxAfter i c = .simple := by
  cases i with
  | schedule => exact .inl ⟨rfl, rfl⟩
  | crypt => exact .inr (.inl ⟨rfl, rfl⟩)
  | scrypt => exact .inr (.inr ⟨rfl, rfl⟩)
  | select | cryptCont | scryptCont | tcommit => exact absurd rfl h

/-- A command that changes CTX has completed, and CTX is its own value. -/
theorem Block.runCommand_ctx {b : Block} {i : Instr} (h : (b.runCommand i (performOf i)).ctx ≠ b.ctx) :
    (b.runCommand i (performOf i)).seq = .idle ∧ (b.runCommand i (performOf i)).done = true ∧
    (b.runCommand i (performOf i)).ctx = ctxAfter i b.ctx := by
  rcases b.runCommand_cases i (performOf i) with ⟨-, e⟩ | ⟨-, -, e⟩ | ⟨-, c, -, e⟩
  all_goals rw [e] at h ⊢
  · exact ⟨rfl, rfl, performOf_ctx i b⟩
  · exact ⟨rfl, rfl, performOf_ctx i _⟩
  · exact absurd rfl h

/-- A run that changes CTX is one of the three commands of 10_state R38. -/
theorem Block.contextCommand_of_runCommand {b : Block} {i : Instr} (h : (b.runCommand i (performOf i)).ctx ≠ b.ctx) :
    (b.runCommand i (performOf i)).seq = .idle ∧ (b.runCommand i (performOf i)).done = true ∧
    (i = .schedule ∧ (b.runCommand i (performOf i)).ctx = .none ∨
      i = .crypt ∧ (b.runCommand i (performOf i)).ctx = .std ∨
      i = .scrypt ∧ (b.runCommand i (performOf i)).ctx = .simple) := by
  obtain ⟨idle, done, ctx⟩ := Block.runCommand_ctx h
  rw [ctx] at h ⊢
  exact ⟨idle, done, ctxAfter_of_ne h⟩

/-- Settles O57, by the effects a step can have. -/
theorem contextChangesOnlyAtItsEvents : Obligations.ContextChangesOnlyAtItsEvents := by
  intro s t hs changed
  rcases step_effect hs with ⟨asserted, e⟩ | effect
  · exact .inl ⟨e ▸ rfl, .inl asserted⟩
  · generalize t.block = b at effect changed ⊢
    cases effect with
    | nothing => exact absurd rfl changed
    | host op off line inside =>
      obtain ⟨idle, none, write, low, high⟩ := Block.transact_ctx changed
      obtain ⟨addr, n, v, rfl, range⟩ := tableWrite_of_transact_ctx inside write low high
      exact .inl ⟨none, .inr ⟨idle, addr, n, v, line, range⟩⟩
    | run i ready =>
      obtain ⟨idle, done, own⟩ := Block.contextCommand_of_runCommand changed
      exact .inr ⟨idle, done, i, ready, own⟩
    | hostThenRun i off t busy =>
      have kept : (s.block.transact off t).1.ctx = s.block.ctx := by
        by_contra changed
        have idle := (Block.transact_ctx changed).1
        rw [busy] at idle
        cases idle
      obtain ⟨idle, done, own⟩ := Block.contextCommand_of_runCommand (kept ▸ changed)
      exact .inr ⟨idle, done, i, .inl busy, own⟩

end Sys2Proof.Machine
end

section
/-! O43, O44 and O47: the access rules and the map of 20_memory R44 to R48 as ranges of offsets, and what a transaction does
in each region. -/

namespace Sys2Proof.Machine

open Sys2Proof.Spec

/-- The size and alignment check is 20_memory R45 and R46. -/
theorem accessOk_iff (off n : Nat) : accessOk off n = true ↔ legalAccess off n := by
  unfold accessOk
  split
  · next low =>
    rw [Bool.and_eq_true, beq_iff_eq, beq_iff_eq]
    constructor
    · rintro ⟨rfl, aligned⟩
      exact ⟨.inr (.inr rfl), aligned, fun _ => rfl⟩
    · rintro ⟨-, aligned, wide⟩
      cases wide low
      exact ⟨rfl, aligned⟩
  · next high =>
    simp only [Bool.and_eq_true, Bool.or_eq_true, beq_iff_eq, legalAccess]
    exact ⟨fun ⟨size, aligned⟩ => ⟨or_assoc.mp size, aligned, fun low => absurd low high⟩,
      fun ⟨size, aligned, _⟩ => ⟨or_assoc.mpr size, aligned⟩⟩

/-- The registers end at 0x037 (20_memory R44). -/
theorem regOffset_lt (r : Reg) : regOffset r < 0x38 := by cases r <;> decide

/-- The three reserved ranges (20_memory R48). -/
theorem regionAt_of_isReserved {cap off : Nat} (h : isReserved cap off) : regionAt cap off = .reserved := by
  unfold regionAt
  split
  · have none : allRegs.find? (fun r => regOffset r == off) = none := by
      refine List.find?_eq_none.mpr fun r _ found => ?_
      have offset : regOffset r = off := beq_iff_eq.mp found
      have := regOffset_lt r
      omega
    rw [none]
  · rw [if_neg (by omega), if_neg (by omega), if_neg (by omega)]
    split
    · rfl
    · rw [if_neg (by omega)]

/-- The windows begin at 0x100, 0x200, 0x300 and 0x1000 (20_memory R44). -/
theorem regionAt_of_windowBase {b : Block} {a : Arr} {o k : Nat} (base : windowBase a = some o) (hk : k < b.arrSize a) :
    regionAt b.dataCap (o + k) = .window a k := by
  cases a
  case work => cases base
  all_goals
    cases base
    simp only [Block.arrSize] at hk
    simp only [regionAt, Nat.add_sub_cancel_left]
    repeat rw [if_neg (by omega)]
    rw [if_pos (by omega)]

/-- The offsets of the four windows (20_memory R44). -/
theorem exists_regionAt_eq_window (cap off : Nat) : (∃ a k, regionAt cap off = .window a k) ↔ inWindow cap off := by
  unfold regionAt
  constructor
  · rintro ⟨a, k, h⟩
    repeat' split at h
    all_goals simp only [reduceCtorEq, Region.window.injEq] at h
    all_goals omega
  · intro inside
    rw [if_neg (by omega)]
    split
    · exact ⟨.key, _, rfl⟩
    split
    · exact ⟨.iv, _, rfl⟩
    split
    · exact ⟨.table, _, rfl⟩
    rw [if_neg (by omega), if_pos (by omega)]
    exact ⟨.data, _, rfl⟩

section
variable {b : Block} {off n k : Nat} {a : Arr}

/-- A reserved offset is RAZ/WI, idle or busy (20_memory R48). -/
theorem Block.transact_reserved (t : Transaction) (legal : accessOk off (sizeOfAccess t) = true)
    (region : regionAt b.dataCap off = .reserved) : b.transact off t = (b, .okay 0) := by
  cases t with
  | memRead n => simp only [Block.transact, Block.hostRead, if_pos (show accessOk off n = true from legal), region]
  | memWrite n v => simp only [Block.transact, Block.hostWrite, if_pos (show accessOk off n = true from legal), region]

theorem Block.hostRead_window_of_busy (legal : accessOk off n = true) (region : regionAt b.dataCap off = .window a k)
    (busy : b.isBusy = true) : b.hostRead off n = (b.capture .busyAccess, .okay 0) := by
  simp only [Block.hostRead, if_pos legal, region, if_pos busy]

theorem Block.hostRead_window_of_idle (legal : accessOk off n = true) (region : regionAt b.dataCap off = .window a k)
    (idle : b.seq = .idle) : b.hostRead off n = (b, .okay (b.readLanes a k n)) := by
  simp only [Block.hostRead, if_pos legal, region, Block.isBusy_idle idle, Bool.false_eq_true, if_false]

theorem Block.hostWrite_window_of_busy (legal : accessOk off n = true) (region : regionAt b.dataCap off = .window a k)
    (busy : b.isBusy = true) (v : Word) : b.hostWrite off n v = (b.capture .busyAccess, .okay 0) := by
  simp only [Block.hostWrite, if_pos legal, region, if_pos busy]

theorem Block.hostWrite_window_of_idle (legal : accessOk off n = true) (region : regionAt b.dataCap off = .window a k)
    (idle : b.seq = .idle) (v : Word) : b.hostWrite off n v = (b.storeWindow a k n v, .okay 0) := by
  simp only [Block.hostWrite, if_pos legal, region, Block.isBusy_idle idle, Bool.false_eq_true, if_false]

/-- Only a legal window read of a busy block changes anything (20_memory R49). -/
theorem Block.hostRead_keeps (other : ¬ (b.isBusy = true ∧ legalAccess off n ∧ inWindow b.dataCap off)) :
    (b.hostRead off n).1 = b := by
  cases legal : accessOk off n with
  | false => rw [Block.hostRead, legal]; rfl
  | true =>
    cases region : regionAt b.dataCap off with
    | register r => rw [Block.hostRead, legal, region]; rfl
    | reserved => rw [Block.hostRead, legal, region]; rfl
    | window a k =>
      have idle : b.seq = .idle := by
        refine b.not_isBusy_iff.mp (Bool.eq_false_iff.mpr fun busy => other ⟨busy, ?_, ?_⟩)
        · exact (accessOk_iff off n).mp legal
        · exact (exists_regionAt_eq_window _ _).mp ⟨a, k, region⟩
      rw [Block.hostRead_window_of_idle legal region idle]

end

/-- Settles O43. -/
theorem reservedOffsetsReadZeroAndIgnoreWrites : Obligations.ReservedOffsetsReadZeroAndIgnoreWrites :=
  fun _ off t legal reserved => Block.transact_reserved t ((accessOk_iff off _).mpr legal) (regionAt_of_isReserved reserved)

/-- Settles O44. -/
theorem readsChangeNothingButWindowReadsWhileBusy : Obligations.ReadsChangeNothingButWindowReadsWhileBusy := by
  intro b off n
  refine ⟨Block.hostRead_keeps, fun ⟨busy, legal, inside⟩ => ?_⟩
  obtain ⟨a, k, region⟩ := (exists_regionAt_eq_window _ _).mpr inside
  exact Block.hostRead_window_of_busy ((accessOk_iff off n).mpr legal) region busy

/-- A busy block drops a configuration write (20_memory R51). -/
theorem Block.configure_of_busy {b : Block} (busy : b.isBusy = true) (b' : Block) :
    b.configure b' = b.capture .busyAccess := if_pos busy

/-- A busy block drops a command word (60_exceptions R124). -/
theorem Block.issue_of_busy {b : Block} (busy : b.isBusy = true) (w : Word) : b.issue w = b.capture .busyCmd := by
  obtain ⟨i, pending⟩ := b.isBusy_iff.mp busy
  rw [Block.issue, pending]

/-- Settles O47: the CMD write is dropped by the issue, the register writes by `configure`, the window writes by the port. -/
theorem busyPortDropsAndReports : Obligations.BusyPortDropsAndReports := by
  intro b i v pending
  have busy := Block.isBusy_busy pending
  have write := fun r => b.hostWrite_regOffset r v
  refine ⟨?_, ?_, fun off n legal inside => ?_⟩
  · exact (write .cmd).trans (congrArg (·, Reply.okay 0) (Block.issue_of_busy busy v))
  · have dropped (r : Reg) (b' : Block) (h : b.writeReg v r = b.configure b') :
        b.hostWrite (regOffset r) 4 v = (b.capture .busyAccess, ⟨.okay, 0⟩) := by
      rw [write, h, Block.configure_of_busy busy]
      rfl
    rintro off (rfl | rfl | rfl | rfl | rfl | rfl | rfl)
    exacts [dropped .keyLen _ rfl, dropped .ivLen _ rfl, dropped .counter _ rfl, dropped .nonce _ rfl,
      dropped .dataLen _ rfl, dropped .selIn _ rfl, dropped .selPrev _ rfl]
  · obtain ⟨a, k, region⟩ := (exists_regionAt_eq_window _ _).mpr inside
    exact Block.hostWrite_window_of_busy ((accessOk_iff off n).mpr legal) region busy v

end Sys2Proof.Machine
end

section
/-! O45 and O46: the byte lanes of a window transaction (20_memory R47). -/

namespace Sys2Proof.Machine

open Sys2Proof.Spec

/-- A byte lane of a word is the byte of its number (00_scope R7). -/
theorem byteLane_toNat (m : Nat) (v : Word) : (byteLane m v).toNat = lane m v.toNat := by
  rw [byteLane, BitVec.extractLsb'_toNat, Nat.shiftRight_eq_div_pow, pow_mul]
  rfl

theorem byteLane_or (m : Nat) (x y : Word) : byteLane m (x ||| y) = byteLane m x ||| byteLane m y :=
  BitVec.extractLsb'_or

theorem byteLane_zero (m : Nat) : byteLane m 0 = 0 := BitVec.extractLsb'_zero

/-- A byte moved to lane `n` is in lane `n` and in no other. -/
theorem byteLane_shifted (x : Byte) {m n : Nat} (hm : m < 4) :
    byteLane m (x.setWidth 32 <<< (8 * n)) = if m = n then x else 0 := by
  refine BitVec.eq_of_getLsbD_eq fun i hi => ?_
  rw [byteLane, BitVec.getLsbD_extractLsb', BitVec.getLsbD_shiftLeft, BitVec.getLsbD_setWidth]
  split
  · next same =>
    subst same
    simp [hi, show 8 * m + i < 32 by omega, show i < 32 by omega]
  · next other =>
    rcases Nat.lt_or_gt_of_ne other with below | above
    · simp [show 8 * m + i < 8 * n by omega]
    · simp [BitVec.getLsbD_of_ge x (8 * m + i - 8 * n) (by omega)]

/-- Every lane of a window read: the byte at its place, or 0 (20_memory R47, R48). -/
theorem Block.byteLane_readLanes (b : Block) (a : Arr) (k n : Nat) {m : Nat} (hm : m < 4) :
    byteLane m (b.readLanes a k n) = if m < n ∧ k + m < b.arrSize a then b.byte a (k + m) else 0 := by
  induction n with
  | zero => exact byteLane_zero m
  | succ n ih =>
    have unroll : b.readLanes a k (n + 1) =
        if k + n < b.arrSize a then b.readLanes a k n ||| (b.byte a (k + n)).setWidth 32 <<< (8 * n)
        else b.readLanes a k n := rfl
    rw [unroll]
    split
    · next inside =>
      rw [byteLane_or, byteLane_shifted _ hm, ih]
      by_cases same : m = n
      · subst same
        rw [if_neg (by omega), if_pos rfl, if_pos ⟨by omega, inside⟩, BitVec.ofNat_eq_ofNat, BitVec.zero_or]
      · have same_lanes : (m < n + 1 ∧ k + m < b.arrSize a) ↔ (m < n ∧ k + m < b.arrSize a) := by omega
        simp only [if_neg same, same_lanes, BitVec.ofNat_eq_ofNat, BitVec.or_zero]
    · next outside =>
      have same_lanes : (m < n + 1 ∧ k + m < b.arrSize a) ↔ (m < n ∧ k + m < b.arrSize a) := by
        have : m = n → ¬ k + m < b.arrSize a := fun same => same ▸ outside
        omega
      simp only [ih, same_lanes]

/-- Settles O45. -/
theorem windowReadsAreLittleEndian : Obligations.WindowReadsAreLittleEndian := by
  intro b a o k n base hk _ legal idle
  refine ⟨b.readLanes a k n, ?_, fun m hm => ?_⟩
  · exact Block.hostRead_window_of_idle ((accessOk_iff _ _).mpr legal) (regionAt_of_windowBase base hk) idle
  · rw [← byteLane_toNat, b.byteLane_readLanes a k n hm, apply_ite BitVec.toNat]
    rfl

@[simp] theorem Block.invalidate_byte (b : Block) (a c : Arr) (x : Nat) : (b.invalidate a).byte c x = b.byte c x := by
  cases a <;> cases c <;> rfl

/-- What a window write does to every byte of every array (20_memory R47). -/
theorem Block.byte_storeWindow (b : Block) (a c : Arr) (k n : Nat) (v : Word) (x : Nat) :
    (b.storeWindow a k n v).byte c x =
      if c = a ∧ k ≤ x ∧ x < k + n ∧ x < b.arrSize a then byteLane (x - k) v else b.byte c x := by
  rw [Block.storeWindow, Block.invalidate_byte, Block.byte_writeLanes]

/-- A window write leaves every other array as data (20_memory R50). -/
theorem Block.storeWindow_arr_other (b : Block) {a c : Arr} (other : c ≠ a) (k n : Nat) (v : Word) :
    (b.storeWindow a k n v).arr c = b.arr c := by
  rw [Block.storeWindow, Block.invalidate_arr, Block.writeLanes_eq, Block.arr_setArr_other b _ other]

/-- A window write changes its array, and TV and CTX where that is TABLE (20_memory R50, 44_table_management R111). -/
theorem Block.storeWindow_frame (b : Block) {a : Arr} (host : a ≠ .work) (k n : Nat) (v : Word) :
    b.storeWindow a k n v =
      { b with
        key := (b.storeWindow a k n v).key, iv := (b.storeWindow a k n v).iv
        table := (b.storeWindow a k n v).table, data := (b.storeWindow a k n v).data
        tv := if a = .table then false else b.tv
        ctx := if a = .table then .none else b.ctx } := by
  rw [Block.storeWindow, Block.writeLanes_eq]
  cases a
  case work => exact absurd rfl host
  all_goals rfl

/-- Settles O46. -/
theorem windowWritesStoreTheirBytes : Obligations.WindowWritesStoreTheirBytes := by
  intro b a o k n v base hk _ legal idle
  have region := regionAt_of_windowBase base hk
  refine ⟨b.storeWindow a k n v, ?_, fun c x => ?_, fun c other => ?_, ?_⟩
  · exact Block.hostWrite_window_of_idle ((accessOk_iff _ _).mpr legal) region idle v
  · rw [b.byte_storeWindow, apply_ite BitVec.toNat, byteLane_toNat]
  · exact b.storeWindow_arr_other other k n v
  · exact b.storeWindow_frame (regionAt_window region) k n v

end Sys2Proof.Machine
end

section
/-! O4, O6 and O7: the host move at an address of the aperture, and the prompt move as the host move and the engine move
(20_memory R43, R54). -/

namespace Sys2Proof.Machine

/-- A step takes the first move of the schedule (70_reset R141). -/
theorem step_of_schedule {s : State} {m : Move} {rest : List Move} (schedule : s.schedule = m :: rest) :
    step s = State.move { s with schedule := rest } m := by
  rw [step, State.nextMove, schedule]

/-- An address of the aperture names its offset (20_memory R43). -/
theorem blockOffset_add (base : Nat) {off : Nat} (inside : off < Config.apertureSize) :
    blockOffset base (base + off) = some off := by
  rw [blockOffset, if_pos ⟨Nat.le_add_right _ _, Nat.add_lt_add_left inside _⟩, Nat.add_sub_cancel_left]

theorem blockOffset_outside {base addr : Nat} (outside : addr < base ∨ base + Config.apertureSize ≤ addr) :
    blockOffset base addr = none := by
  refine if_neg ?_
  omega

/-- The host's move with a line that addresses the block is that line's transaction (20_memory R42, R43). -/
theorem State.hostMove_of_inside {s : State} {op : ScriptOp} {off : Nat} (line : s.master.current = some op)
    (inside : blockOffset s.block.base (scriptAddress op) = some off) :
    s.hostMove = .next
      { s with
        block  := (s.block.transact off (scriptTransaction op)).1
        master := s.master.advance op (s.block.transact off (scriptTransaction op)).2 } := by
  simp only [State.hostMove, line, inside]

theorem State.hostMove_of_outside {s : State} {op : ScriptOp} (line : s.master.current = some op)
    (outside : blockOffset s.block.base (scriptAddress op) = none) : s.hostMove = .fault .outsideAperture := by
  simp only [State.hostMove, line, outside]

/-- No transaction changes the configuration (10_state R13). -/
theorem Block.transact_toParameters (b : Block) (off : Nat) (t : Transaction) :
    (b.transact off t).1.toParameters = b.toParameters := by
  generalize hb : (b.transact off t).1 = b'
  have e := b.transact_effect off t
  rw [hb] at e
  cases e with
  | configure r v _ _ h => exact (Block.configured_keeps h).1.parameters
  | store a k n v =>
    rw [Block.storeWindow, Block.writeLanes_eq]
    cases a <;> rfl
  | issue w =>
    rcases b.issue_cases w with ⟨-, e⟩ | ⟨-, -, e⟩ | ⟨-, i, c, -, -, e⟩ | ⟨-, i, -, -, e⟩
    all_goals rw [e]; rfl
  | nothing | busyAccess | status | inten => rfl

/-- Settles O6. -/
theorem stepTakesOneHostTransaction : Obligations.StepTakesOneHostTransaction := by
  intro s rest op schedule line
  rw [step_of_schedule schedule, State.move]
  refine ⟨fun off inside address => ?_, fun outside => ?_⟩
  · have offset : blockOffset s.block.base (scriptAddress op) = some off := address ▸ blockOffset_add _ inside
    refine ⟨_, State.hostMove_of_inside line offset, rfl, s.block.transact_toParameters _ _, rfl, rfl, rfl, ?_, ?_⟩
    all_goals cases op <;> rfl
  · exact State.hostMove_of_outside line (blockOffset_outside outside)

/-- The one way a command is presented: a 32-bit write of its word to CMD, with the block idle (20_memory R57). -/
theorem State.presentedCommand_eq_some {s : State} {i : Instr} :
    s.presentedCommand = some i ↔
      s.block.seq = .idle ∧ ∃ addr w, s.master.current = some (.write addr 4 w) ∧
        blockOffset s.block.base addr = some (regOffset .cmd) ∧ decode w = .command i := by
  constructor
  · intro presented
    have idle := State.idle_of_presentedCommand presented
    rw [State.presentedCommand, Block.isBusy_idle idle, if_neg Bool.false_ne_true, Option.bind_eq_some_iff] at presented
    obtain ⟨w, written, command⟩ := presented
    unfold State.commandWord at written
    split at written
    · next addr v line =>
      obtain ⟨inside, value⟩ := Option.ite_none_right_eq_some.mp written
      cases value
      refine ⟨idle, addr, w, line, inside, ?_⟩
      cases word : decode w with
      | command j => rw [word] at command; cases command; rfl
      | refused r => rw [word] at command; cases command
    · cases written
  · rintro ⟨idle, addr, w, line, inside, word⟩
    have written : s.commandWord = some w := by
      rw [State.commandWord, line]
      exact if_pos inside
    rw [State.presentedCommand, Block.isBusy_idle idle, if_neg Bool.false_ne_true, written, Option.bind_some, word]
    rfl

/-- A command word on an idle block goes to the checks of 60_exceptions R120. -/
theorem Block.issue_of_command {b : Block} {w : Word} {i : Instr} (idle : b.seq = .idle) (word : decode w = .command i) :
    b.issue w = b.clearDone.accept i := by
  simp only [Block.issue, idle, word]

/-- The host's move that presents a command is its CMD write: answered OKAY, with the command through its checks. -/
theorem State.hostMove_of_presented {s : State} {i : Instr} (presented : s.presentedCommand = some i) :
    s.hostMove = .next { s.commandTaken with block := s.block.clearDone.accept i } := by
  obtain ⟨idle, addr, w, line, inside, word⟩ := State.presentedCommand_eq_some.mp presented
  have write : s.block.transact (regOffset .cmd) (.memWrite 4 w) = (s.block.clearDone.accept i, .okay 0) := by
    rw [Block.transact, Block.hostWrite_regOffset, Block.writeReg, Block.issue_of_command idle word]
  rw [State.hostMove_of_inside line inside, scriptTransaction, write]
  rfl

/-- The engine's move after a command went through its checks is the command's meaning from the idle block: the accepted
command is performed, and a rejected one leaves nothing to do (70_reset R140). -/
theorem State.engineMove_of_accept {s : State} (idle : s.block.seq = .idle) (i : Instr) :
    State.engineMove { s with block := s.block.clearDone.accept i } = exec i s := by
  rw [exec_eq]
  cases check : s.block.issueError i with
  | none =>
    have accepted := Block.accept_of_none ((s.block.issueError_clearDone i).trans check)
    rw [accepted, Block.runCommand_of_accepted idle check]
    exact exec_eq i _
  | some c =>
    have rejected := Block.accept_of_some ((s.block.issueError_clearDone i).trans check)
    rw [rejected, Block.runCommand_of_rejected idle check, State.engineMove, Block.capture_seq, Block.clearDone_seq, idle]

/-- Settles O7: a presented command is issue and engine step in one, and any other prompt move is the two by definition. -/
theorem promptMoveIsHostMoveThenEngineMove : Obligations.PromptMoveIsHostMoveThenEngineMove := by
  intro s
  rcases s.promptMove_cases with ⟨i, presented, prompt⟩ | ⟨-, t, host, prompt⟩ | ⟨-, host, prompt⟩
  all_goals rw [prompt]
  · have idle := State.idle_of_presentedCommand presented
    rw [State.hostMove_of_presented presented, ← State.engineMove_of_accept (s := s.commandTaken) idle i]
    refine ⟨fun _ next => ?_, nofun⟩
    cases next
    rfl
  · rw [host]
    refine ⟨fun _ next => ?_, nofun⟩
    cases next
    rfl
  · rw [host]
    refine ⟨fun _ next => ?_, fun _ fault => ?_⟩
    · cases next
    · cases fault
      rfl

/-- Settles O4. -/
theorem stepRunsThePresentedCommand : Obligations.StepRunsThePresentedCommand := by
  intro s rest addr w i schedule idle line address word
  have inside : blockOffset s.block.base addr = some (regOffset .cmd) := address ▸ blockOffset_add _ (by decide)
  have presented : State.presentedCommand { s with schedule := rest } = some i :=
    State.presentedCommand_eq_some.mpr ⟨idle, addr, w, line, inside, word⟩
  rw [step_of_schedule schedule, State.move, State.promptMove, presented]
  rfl

end Sys2Proof.Machine
end

section
/-! O1 to O3: the decoder and the encoder against the table of 30_encoding R62, and the field tests of R63. -/

namespace Sys2Proof.Machine

open Sys2Proof.Spec

/-- The encoder writes the table's words (30_encoding R62). -/
theorem encode_toNat (i : Instr) : (encode i).toNat = commandWord i := by cases i <;> rfl

theorem encode_eq_ofNat (i : Instr) : encode i = BitVec.ofNat 32 (commandWord i) := by
  rw [← encode_toNat, BitVec.ofNat_toNat, BitVec.setWidth_eq]

theorem decode_encode (i : Instr) : decode (encode i) = .command i := by
  cases i with
  | select => exact Laws.CommandWord.select.2
  | schedule => exact Laws.CommandWord.schedule.2
  | crypt => exact Laws.CommandWord.crypt.2
  | cryptCont => exact Laws.CommandWord.cryptCont.2
  | scrypt => exact Laws.CommandWord.scrypt.2
  | scryptCont => exact Laws.CommandWord.scryptCont.2
  | tcommit => exact Laws.CommandWord.tcommit.2

/-- Each branch of the decoder that answers a command compares the whole word with that command's. -/
theorem eq_encode_of_decode {w : Word} {i : Instr} (word : decode w = .command i) : w = encode i := by
  unfold decode at word
  repeat' split at word
  all_goals cases word
  all_goals assumption

theorem decode_eq_command_iff {w : Word} {i : Instr} : decode w = .command i ↔ w.toNat = commandWord i := by
  rw [← encode_toNat, BitVec.toNat_inj]
  exact ⟨eq_encode_of_decode, fun word => word ▸ decode_encode i⟩

/-- Settles O1. -/
theorem decodeReadsExactlyTheSevenWords : Obligations.DecodeReadsExactlyTheSevenWords :=
  fun _ i => ⟨decode_eq_command_iff, encode_toNat i⟩

/-- The two forms of 30_encoding R63: the words of the table are those whose fields pass the three tests. -/
theorem exists_commandWord_iff_legalFields (n : Nat) : (∃ i, n = commandWord i) ↔ legalFields n := by
  constructor
  · rintro ⟨i, rfl⟩
    cases i <;> decide
  · rintro ⟨reserved, opcode, continuation⟩
    have listed : n = 1 ∨ n = 2 ∨ n = 3 ∨ n = 0x103 ∨ n = 4 ∨ n = 0x104 ∨ n = 5 := by omega
    rcases listed with h | h | h | h | h | h | h
    exacts [⟨.select, h⟩, ⟨.schedule, h⟩, ⟨.crypt, h⟩, ⟨.cryptCont, h⟩, ⟨.scrypt, h⟩, ⟨.scryptCont, h⟩, ⟨.tcommit, h⟩]

theorem exists_decode_iff_legalFields (w : Word) : (∃ i, decode w = .command i) ↔ legalFields w.toNat := by
  rw [← exists_commandWord_iff_legalFields]
  exact exists_congr fun _ => decode_eq_command_iff

/-- An idle block rejects a word that is no command (60_exceptions R120, step 3). -/
theorem Block.issue_of_refused {b : Block} {w : Word} (idle : b.seq = .idle) (unlisted : ¬ ∃ i, decode w = .command i) :
    b.issue w = b.clearDone.capture .illegalCmd := by
  rcases b.issue_cases w with ⟨busy, -⟩ | ⟨-, -, refused⟩ | ⟨-, i, c, word, -⟩ | ⟨-, i, word, -⟩
  · rw [Block.isBusy_idle idle] at busy
    cases busy
  · exact refused
  · exact absurd ⟨i, word⟩ unlisted
  · exact absurd ⟨i, word⟩ unlisted

/-- Settles O2. -/
theorem legalWordsPassTheFieldTests : Obligations.LegalWordsPassTheFieldTests := by
  refine ⟨exists_decode_iff_legalFields, fun w b idle illegal => ?_⟩
  have unlisted : ¬ ∃ i, decode w = .command i := mt (exists_decode_iff_legalFields w).mp illegal
  calc b.hostWrite (regOffset .cmd) 4 w
    _ = (b.issue w, .okay 0) := b.hostWrite_regOffset .cmd w
    _ = (b.clearDone.capture .illegalCmd, .okay 0) := by rw [Block.issue_of_refused idle unlisted]

/-- Settles O3: eight closed words, evaluated. -/
theorem writtenOutWordsDecode : Obligations.WrittenOutWordsDecode := by
  unfold Obligations.WrittenOutWordsDecode
  decide

end Sys2Proof.Machine
end

section
/-! O59: the assembly of a script, line by line (30_encoding R71, R72). -/

namespace Sys2Proof.Machine

open Sys2Proof.Spec

theorem scriptOffset_eq_offsetOf (off : ScriptOffset) : scriptOffset off = offsetOf off := by
  cases off with
  | reg r plus => cases r <;> rfl
  | _ => rfl

/-- The line is no label and no branch (BNZ32, and the poll of WAIT and RUN): its transactions depend neither on the rest of
the script nor on their number in it. -/
def isPlain : ScriptLine → Bool
  | .label _ | .bnz32 _ _ _ | .wait | .run _ => false
  | _ => true

section
variable (base : Nat) (script : List ScriptLine)

theorem length_lineTransactions (n : Nat) (line : ScriptLine) :
    (lineTransactions base script n line).length = sizeOfLine line := by
  cases line <;> simp [lineTransactions, sizeOfLine]

theorem expandLine_of_isPlain {line : ScriptLine} (plain : isPlain line = true) (n : Nat) :
    expandLine base line = (lineTransactions base script n line).map .op := by
  cases line
  case label | bnz32 | wait | run => cases plain
  case cmd i => rw [expandLine, encode_eq_ofNat]; rfl
  case loadb | loadw =>
    simp only [expandLine, lineTransactions, spread_eq, scriptOffset_eq_offsetOf, Nat.one_mul, BitVec.ofNat_toNat]
  case dumpb =>
    simp only [expandLine, lineTransactions, spread_eq, scriptOffset_eq_offsetOf, Nat.one_mul]
    congr 1
    exact List.ext_getElem (by simp) (by simp)
  all_goals simp only [expandLine, lineTransactions, scriptOffset_eq_offsetOf]; rfl

/-- What a line is to the search for a label: its definition, or that many transactions to pass over. -/
theorem findLabel_expandLine (name : String) (n : Nat) (line : ScriptLine) (rest : List ExpandedLine) :
    findLabel name n (expandLine base line ++ rest) =
      if line = .label name then some n else findLabel name (n + sizeOfLine line) rest := by
  by_cases plain : isPlain line = true
  · rw [expandLine_of_isPlain base [] plain 0, findLabel_ops, length_lineTransactions, if_neg]
    rintro rfl
    cases plain
  · cases line
    case label other =>
      simp only [expandLine, List.cons_append, List.nil_append, findLabel, ScriptLine.label.injEq, eq_comm (a := name)]
      rfl
    case bnz32 | wait | run => rfl
    all_goals exact absurd rfl plain

/-- A label of the script names the transaction it stands before; one the script lacks names none. -/
theorem findLabel_flatMap (name : String) (n : Nat) :
    findLabel name n (script.flatMap (expandLine base)) =
      if .label name ∈ script then some (n + labelAt script name) else none := by
  induction script generalizing n with
  | nil => rfl
  | cons line rest ih =>
    rw [List.flatMap_cons, findLabel_expandLine, ih]
    by_cases here : line = .label name
    · simp [here, labelAt, sizeOfLines]
    · simp [here, Ne.symm here, labelAt, sizeOfLines, Nat.add_assoc]

/-- A line assembles to its transactions, in front of those of the lines after it, once the label it names is found. -/
theorem assembleFrom_expandLine (all rest : List ExpandedLine) (n : Nat) (line : ScriptLine)
    (found : ∀ off mask name, line = .bnz32 off mask name → findLabel name 0 all = some (labelAt script name)) :
    assembleFrom base all n (expandLine base line ++ rest) =
      (assembleFrom base all (n + sizeOfLine line) rest).map (lineTransactions base script n line ++ ·) := by
  by_cases plain : isPlain line = true
  · rw [expandLine_of_isPlain base script plain n, assembleFrom_ops, length_lineTransactions]
  · cases line
    case label => exact Option.map_id'.symm
    case bnz32 off mask name =>
      simp only [expandLine, List.cons_append, List.nil_append, assembleFrom, found off mask name rfl,
        scriptOffset_eq_offsetOf]
      rfl
    case wait => rfl
    case run i =>
      simp only [expandLine, List.cons_append, List.nil_append, assembleFrom, encode_eq_ofNat, Option.map_map]
      rfl
    all_goals exact absurd rfl plain

/-- The lines of a script from some line on assemble to their transactions, where every label they name is found. -/
theorem assembleFrom_flatMap (all : List ExpandedLine) (n : Nat) (lines : List ScriptLine)
    (found : ∀ off mask name, .bnz32 off mask name ∈ lines → findLabel name 0 all = some (labelAt script name)) :
    assembleFrom base all n (lines.flatMap (expandLine base)) = some (linesTransactions base script n lines) := by
  induction lines generalizing n with
  | nil => rfl
  | cons line rest ih =>
    rw [List.flatMap_cons, assembleFrom_expandLine base script, ih, linesTransactions]
    · rfl
    · exact fun off mask name branch => found off mask name (List.mem_cons_of_mem _ branch)
    · rintro off mask name rfl
      exact found off mask name List.mem_cons_self

/-- One branch without its label, anywhere in the lines, and nothing is assembled (log 19). -/
theorem assembleFrom_of_missing (all : List ExpandedLine) (n : Nat) (lines : List ExpandedLine) {addr : Nat} {mask : Word}
    {name : String} (branch : .branch addr mask name ∈ lines) (missing : findLabel name 0 all = none) :
    assembleFrom base all n lines = none := by
  induction lines generalizing n with
  | nil => cases branch
  | cons line rest ih =>
    rcases List.mem_cons.mp branch with rfl | later
    · rw [assembleFrom, missing]
    · cases line with
      | label => rw [assembleFrom, ih _ later]
      | op | poll => rw [assembleFrom, ih _ later]; rfl
      | branch _ _ other =>
        rw [assembleFrom]
        cases findLabel other 0 all with
        | none => rfl
        | some target => exact congrArg (Option.map _) (ih _ later)

end

/-- Settles O59: by the label search and the induction over the lines. -/
theorem scriptLinesEncodeTheirTransactions : Obligations.ScriptLinesEncodeTheirTransactions := by
  intro base script
  refine ⟨fun defined => ?_, fun off mask name branch absent => ?_⟩
  · refine assembleFrom_flatMap base script _ 0 script fun off mask name branch => ?_
    rw [findLabel_flatMap, if_pos (defined off mask name branch), Nat.zero_add]
  · refine assembleFrom_of_missing base _ 0 _ (List.mem_flatMap.mpr ⟨_, branch, List.mem_singleton_self _⟩) ?_
    rw [findLabel_flatMap, if_neg absent]

end Sys2Proof.Machine
end

section
/-! O60: a script that runs one command, under the default order of moves (30_encoding R72, 70_reset R149, log 7). -/

namespace Sys2Proof.Machine

/-- A run goes on from the state its first step leads to. -/
theorem run_succ_of_next {M : Host.Core} {s t : M.State} (next : M.step s = .next t) (k : Nat) :
    M.run (k + 1) s = M.run k t := by
  rw [Host.Core.run, next]

theorem run_three_of_goes {s t u v : State} (first : s.Goes t) (second : t.Goes u) (third : u.Goes v) :
    Sys2Proof.core.run 3 s = .next v :=
  calc Sys2Proof.core.run 3 s
    _ = Sys2Proof.core.run 2 t := run_succ_of_next (M := Sys2Proof.core) first 2
    _ = Sys2Proof.core.run 1 u := run_succ_of_next (M := Sys2Proof.core) second 1
    _ = Sys2Proof.core.run 0 v := run_succ_of_next (M := Sys2Proof.core) third 0

/-- With no move scheduled a step is the host's while the block is idle (log 7). -/
theorem step_of_idle {s : State} (empty : s.schedule = []) (idle : s.block.seq = .idle) : step s = s.hostMove := by
  obtain ⟨block, master, schedule⟩ := s
  cases empty
  rw [step, State.nextMove, State.defaultMove, Block.isBusy_idle idle]
  rfl

/-- With no move scheduled a step is the pending command's engine step (log 7, 70_reset R140). -/
theorem step_of_busy {s : State} {i : Instr} (empty : s.schedule = []) (busy : s.block.seq = .busy i) :
    step s = .next { s with block := (performOf i s.block).complete } := by
  have engine : s.engineMove = .next { s with block := (performOf i s.block).complete } := by
    rw [State.engineMove, busy]
    exact (exec_eq i s).trans (by rw [Block.runCommand_of_busy busy])
  rw [← engine]
  obtain ⟨block, master, schedule⟩ := s
  cases empty
  rw [step, State.nextMove, State.defaultMove, Block.isBusy_busy busy]
  rfl

/-- After the script's end the host does nothing. -/
theorem goes_self_of_runOver {s : State} (empty : s.schedule = []) (h : s.RunOver) : s.Goes s := by
  obtain ⟨ended, idle⟩ := h
  rw [State.Goes, step_of_idle empty idle, State.hostMove, ended]

/-- The two lines of `RUN i` (30_encoding R72): the CMD write, and the poll of STATUS.BUSY that continues at itself. -/
def runLines (base : Nat) (i : Instr) : List ScriptOp :=
  [.write (base + regOffset .cmd) 4 (encode i), .bnz (base + regOffset .status) 1 1]

theorem assemble_run (base : Nat) (i : Instr) : assemble base [.run i] = some (runLines base i) := rfl

/-- STATUS.BUSY is bit 0 (10_state R21). -/
theorem Block.statusWord_and_one {b : Block} (idle : b.seq = .idle) : b.statusWord &&& 1 = 0 := by
  have even : b.statusWord.toNat % 2 = 0 := by
    rw [Block.statusWord_toNat, Block.isBusy_idle idle, Bool.toNat_false]
    omega
  rw [← BitVec.toNat_inj, BitVec.toNat_and]
  exact (Nat.and_one_is_mod _).trans even

section
variable {s : State} {i : Instr} (empty : s.schedule = []) (idle : s.block.seq = .idle)
  (script : s.master.script = runLines s.block.base i)
include empty idle script

/-- The first line presents the command: it goes through the checks of 60_exceptions R120. -/
theorem goes_of_commandLine (line : s.master.line = 0) :
    s.Goes { s.commandTaken with block := s.block.clearDone.accept i } := by
  have write : s.master.current = some (.write (s.block.base + regOffset .cmd) 4 (encode i)) := by
    rw [Master.current, script, line]
    rfl
  have presented : s.presentedCommand = some i :=
    State.presentedCommand_eq_some.mpr ⟨idle, _, _, write, blockOffset_add _ (by decide), decode_encode i⟩
  exact (step_of_idle empty idle).trans (State.hostMove_of_presented presented)

/-- The poll finds BUSY = 0 and ends the script. -/
theorem goes_runOver_of_pollLine (line : s.master.line = 1) : ∃ t, s.Goes t ∧ t.schedule = [] ∧ t.RunOver := by
  have poll : s.master.current = some (.bnz (s.block.base + regOffset .status) 1 1) := by
    rw [Master.current, script, line]
    rfl
  have move := State.hostMove_of_inside poll (blockOffset_add _ (by decide) : _ = some (regOffset .status))
  have read : s.block.transact (regOffset .status) (.memRead 4) = (s.block, .okay s.block.statusWord) :=
    s.block.hostRead_regOffset .status
  rw [scriptTransaction, read] at move
  refine ⟨_, (step_of_idle empty idle).trans move, empty, ?_, idle⟩
  have next : nextLine s.master.line (.bnz (s.block.base + regOffset .status) 1 1) (.okay s.block.statusWord) = 2 := by
    rw [nextLine, Reply.okay, if_pos (Block.statusWord_and_one idle), line]
  simp only [Master.current, Master.advance, next, script]
  rfl

end

/-- Settles O60: an accepted command takes its engine step before the poll, and after a rejected one the poll leaves the
host a step with nothing to do. -/
theorem runOfACommandEndsInThreeSteps : Obligations.RunOfACommandEndsInThreeSteps := by
  intro s i idle empty line assembled
  have script : s.master.script = runLines s.block.base i :=
    Option.some.inj (assembled.symm.trans (assemble_run s.block.base i))
  have nextLine : s.commandTaken.master.line = 1 := congrArg (· + 1) line
  have command := goes_of_commandLine empty idle script line
  rcases s.block.clearDone.accept_cases i with ⟨-, accepted⟩ | ⟨c, -, rejected⟩
  · rw [accepted] at command
    generalize presented : ({ s.block.clearDone with seq := .busy i } : Block) = b at command
    have engine : State.Goes { s.commandTaken with block := b } { s.commandTaken with block := (performOf i b).complete } :=
      step_of_busy empty (presented ▸ rfl)
    have base : (performOf i b).complete.base = s.block.base :=
      (congrArg Parameters.base (performOf_toParameters i b)).trans (presented ▸ rfl)
    obtain ⟨t, poll, -, finished⟩ :=
      goes_runOver_of_pollLine (s := { s.commandTaken with block := (performOf i b).complete }) (i := i) empty rfl
        (base ▸ script) nextLine
    exact ⟨t, run_three_of_goes command engine poll, finished⟩
  · rw [rejected] at command
    obtain ⟨t, poll, done, finished⟩ :=
      goes_runOver_of_pollLine (s := { s.commandTaken with block := s.block.clearDone.capture c }) (i := i) empty idle
        script nextLine
    exact ⟨t, run_three_of_goes command poll (goes_self_of_runOver done finished), finished⟩

end Sys2Proof.Machine
end

section
/-! O9, O10, O12 and O13: the selector by the parity of its byte and by whether the candidate is `previous`
(40_selector R73). -/

namespace Sys2Proof.Machine

/-- The candidate in the numbers of the pseudocode (40_selector R73). -/
theorem selectorCandidate_eq_ofNat (b : Byte) :
    selectorCandidate b = BitVec.ofNat 8 ((if b.toNat % 2 = 1 then b.toNat else b.toNat + 57) ^^^ 96) := by
  simp [selectorCandidate, BitVec.getLsbD]

theorem selectorCandidate_toNat (b : Byte) :
    (selectorCandidate b).toNat = ((if b.toNat % 2 = 1 then b.toNat else b.toNat + 57) ^^^ 96) % 256 := by
  rw [selectorCandidate_eq_ofNat, BitVec.toNat_ofNat]

theorem selectorCandidate_of_odd {b : Byte} (odd : b.toNat % 2 = 1) : selectorCandidate b = b ^^^ 96 := by
  rw [selectorCandidate_eq_ofNat, if_pos odd, BitVec.ofNat_xor, BitVec.ofNat_toNat, BitVec.setWidth_eq]
  rfl

theorem selectorCandidate_of_even {b : Byte} (even : b.toNat % 2 = 0) : selectorCandidate b = (b + 57) ^^^ 96 := by
  rw [selectorCandidate_eq_ofNat, if_neg (by omega), BitVec.ofNat_xor, BitVec.ofNat_add, BitVec.ofNat_toNat,
    BitVec.setWidth_eq]
  rfl

/-- A byte's zero extension is `p` exactly when the two are the same number (00_scope R8). -/
theorem setWidth_eq_iff_toNat_eq (x : Byte) (p : Word) : x.setWidth 32 = p ↔ x.toNat = p.toNat := by
  rw [← BitVec.toNat_inj, BitVec.toNat_setWidth, Nat.mod_eq_of_lt (by omega)]

theorem cs_of_candidate_eq {b : Byte} {p : Word} (h : (selectorCandidate b).setWidth 32 = p) :
    cs b p = selectorCandidate b + 2 := if_pos h

theorem cs_of_candidate_ne {b : Byte} {p : Word} (h : (selectorCandidate b).setWidth 32 ≠ p) :
    cs b p = selectorCandidate b := if_neg h

/-- A byte is below 256, so no candidate equals a `previous` from 256 on (40_selector R75). -/
theorem cs_of_previous_ge {b : Byte} {p : Word} (large : 256 ≤ p.toNat) : cs b p = selectorCandidate b :=
  cs_of_candidate_ne fun h => by
    have := (setWidth_eq_iff_toNat_eq _ p).mp h
    omega

/-- An odd candidate is not 0 (40_selector R78). -/
theorem cs_of_previous_zero (b : Byte) : cs b 0 = selectorCandidate b :=
  cs_of_candidate_ne fun h => by
    have odd := selectorCandidate_odd b
    have zero : (selectorCandidate b).toNat = 0 := (setWidth_eq_iff_toNat_eq _ 0).mp h
    omega

/-- Where the candidate is `previous`, the result is another byte; elsewhere it is the candidate (40_selector R74). -/
theorem cs_setWidth_ne_previous (b : Byte) (p : Word) : (cs b p).setWidth 32 ≠ p := by
  by_cases h : (selectorCandidate b).setWidth 32 = p
  · rw [cs_of_candidate_eq h]
    rw [setWidth_eq_iff_toNat_eq] at h
    rw [Ne, setWidth_eq_iff_toNat_eq, ← h]
    bv_omega
  · rwa [cs_of_candidate_ne h]

/-- The selector given a stride as `previous` gives another stride (40_selector R80). -/
theorem cs_setWidth_ne (b stride : Byte) : cs b (stride.setWidth 32) ≠ stride := fun h =>
  cs_setWidth_ne_previous b (stride.setWidth 32) (congrArg (BitVec.setWidth 32) h)

/-- Settles O9. -/
theorem selectorIsThePseudocode : Obligations.SelectorIsThePseudocode := by
  intro b p
  have pseudocode : Spec.cs b.toNat p.toNat =
      if (selectorCandidate b).toNat = p.toNat then ((selectorCandidate b).toNat + 2) % 256
      else (selectorCandidate b).toNat := by
    rw [selectorCandidate_toNat]
    rfl
  rw [pseudocode]
  by_cases h : (selectorCandidate b).setWidth 32 = p
  · rw [cs_of_candidate_eq h, if_pos ((setWidth_eq_iff_toNat_eq _ p).mp h), BitVec.toNat_add]
    rfl
  · rw [cs_of_candidate_ne h, if_neg (mt (setWidth_eq_iff_toNat_eq _ p).mpr h)]

/-- Settles O10: an odd byte is in 1 to 255. -/
theorem selectorIsOddAndNeverPrevious : Obligations.SelectorIsOddAndNeverPrevious := by
  refine ⟨fun b p => ?_, by decide⟩
  have odd := cs_odd b p
  refine ⟨odd, by omega, by omega, cs_setWidth_ne_previous b p, fun large => ?_⟩
  rw [cs_of_previous_ge large, selectorCandidate_toNat]

/-- XOR 96 keeps the parity, as 96 is even. -/
theorem xor_96_mod_two (x : Byte) : (x ^^^ 96).toNat % 2 = x.toNat % 2 := by
  have even : (96 : Byte).toNat = 96 := rfl
  rw [BitVec.toNat_xor, Nat.xor_mod_two_eq]
  omega

theorem xor_96_eq_iff (x v : Byte) : x ^^^ 96 = v ↔ x = v ^^^ 96 := by
  have back : v ^^^ 96 ^^^ 96 = v := by rw [BitVec.xor_assoc, BitVec.xor_self, BitVec.xor_zero]
  rw [← BitVec.xor_left_inj (x := x) 96, back]

/-- Settles O12: each parity of the byte can be undone, and the even byte is `v XOR 96` less 57. -/
theorem selectorHitsEachOddValueTwice : Obligations.SelectorHitsEachOddValueTwice := by
  intro v oddValue
  have oddByte : (v ^^^ 96).toNat % 2 = 1 := (xor_96_mod_two v).trans oddValue
  have evenByte : ((v ^^^ 96) - 57).toNat % 2 = 0 := by
    have offset : (57 : Byte).toNat = 57 := rfl
    rw [BitVec.toNat_sub]
    omega
  refine ⟨(v ^^^ 96) - 57, evenByte, oddByte, fun b => ?_⟩
  rw [cs_of_previous_zero]
  rcases Nat.mod_two_eq_zero_or_one b.toNat with even | odd
  · have notOddByte : b ≠ v ^^^ 96 := fun h => by rw [h] at even; omega
    rw [selectorCandidate_of_even even, xor_96_eq_iff, BitVec.eq_sub_iff_add_eq, or_iff_right notOddByte]
  · have notEvenByte : b ≠ (v ^^^ 96) - 57 := fun h => by rw [h] at odd; omega
    rw [selectorCandidate_of_odd odd, xor_96_eq_iff, or_iff_left notEvenByte]

/-- Settles O13: each second stride is selected with the first as `previous`. -/
theorem theTwoStridesDiffer : Obligations.TheTwoStridesDiffer := fun b =>
  ⟨cs_setWidth_ne _ b.stride1, cs_setWidth_ne _ b.cryptStrideA, cs_setWidth_ne _ b.scryptStrideA⟩

end Sys2Proof.Machine
end

section
/-! O11: a walk by an odd stride over the 256 indices (40_selector R77). -/

namespace Sys2Proof.Machine

/-- The position after `k` steps of a walk by `stride` from `start` (40_selector R77). -/
def walkPosition (stride start : Byte) (k : Nat) : Byte := start + BitVec.ofNat 8 k * stride

theorem walkPosition_toNat (stride start : Byte) (k : Nat) :
    (walkPosition stride start k).toNat = (start.toNat + k * stride.toNat) % 256 := by
  simp [walkPosition]

section
variable {stride : Byte} (odd : stride.toNat % 2 = 1)
include odd

theorem walkPosition_inj (start : Byte) {m n : Nat} (hm : m < 256) (hn : n < 256)
    (h : walkPosition stride start (m + 1) = walkPosition stride start (n + 1)) : m = n :=
  ofNat_mul_stride_inj odd hm hn ((BitVec.add_right_inj start).mp h)

/-- 256 different positions are all the indices there are. -/
theorem existsUnique_walkPosition (start x : Byte) :
    ∃! k : Nat, (1 ≤ k ∧ k ≤ 256) ∧ walkPosition stride start k = x := by
  have injective : Function.Injective fun m : Byte => walkPosition stride start (m.toNat + 1) := fun m n h =>
    BitVec.toNat_inj.mp (walkPosition_inj odd start m.isLt n.isLt h)
  obtain ⟨m, reached⟩ := Finite.injective_iff_surjective.mp injective x
  refine ⟨m.toNat + 1, ⟨by omega, reached⟩, fun k ⟨⟨first, last⟩, again⟩ => ?_⟩
  obtain ⟨n, rfl⟩ := Nat.exists_eq_add_of_le' first
  rw [walkPosition_inj odd start (by omega) m.isLt (again.trans reached.symm)]

end

/-- Settles O11: every selected stride is odd. -/
theorem selectorWalkVisitsEveryIndexOnce : Obligations.SelectorWalkVisitsEveryIndexOnce := by
  intro b p start
  refine ⟨fun x => ?_, by omega⟩
  simpa only [← walkPosition_toNat, BitVec.toNat_inj] using existsUnique_walkPosition (cs_odd b p) start x

end Sys2Proof.Machine
end

section
/-! O15: SELECT, presented to an idle block or pending (40_selector R76). -/

namespace Sys2Proof.Machine

open Sys2Proof.Spec

/-- No issue check can fail for SELECT, and the engine step ends both ways in the same block (60_exceptions R120,
70_reset R140). -/
theorem Block.runCommand_select {b : Block} (ready : b.seq = .idle ∨ b.seq = .busy .select) :
    b.runCommand .select performSelect =
      { b with selOut := Machine.cs b.selIn b.selPrev, seq := .idle, done := true } := by
  rcases ready with idle | busy
  · rw [Block.runCommand_of_accepted idle rfl]
    rfl
  · rw [Block.runCommand_of_busy busy]
    rfl

/-- Settles O15: the selector in SEL_OUT is the pseudocode's by O9. -/
theorem selectWritesSelOut : Obligations.SelectWritesSelOut := by
  intro s ready
  refine ⟨_, exec_eq .select s, ?_⟩
  dsimp only [performOf]
  rw [Block.runCommand_select ready]
  exact ⟨selectorIsThePseudocode s.block.selIn s.block.selPrev, rfl⟩

end Sys2Proof.Machine
end

section
/-! O16, the arrays in the numbers of the pseudocode: what a write and a swap make of them (00_scope R8, R9). -/

namespace Sys2Proof.Machine

/-- The array as the pseudocode sees it: the byte at each index, as a number (00_scope R8). -/
def Memory.toBytes (m : Memory) (draw : Nat → Byte) : Spec.Bytes := fun k => (m.read draw k).toNat

theorem Block.contents_table (b : Block) : Spec.contents b .table = b.table.toBytes (b.draw .table) := rfl

theorem Memory.toBytes_put (m : Memory) (draw : Nat → Byte) (k : Nat) (v : Byte) :
    (m.put k v).toBytes draw = Spec.set (m.toBytes draw) k v.toNat := by
  funext x
  simp only [Memory.toBytes, Memory.read_put, Spec.set, apply_ite BitVec.toNat]

theorem Memory.toBytes_swap (m : Memory) (draw : Nat → Byte) (x y : Nat) :
    (m.swap draw x y).toBytes draw = Spec.swap (m.toBytes draw) x y := by
  funext k
  simp only [Memory.toBytes, Memory.read_swap, Spec.swap, Spec.set, apply_ite BitVec.toNat]

end Sys2Proof.Machine
end

section
/-! O16, the two phases of the key schedule against their pseudocode (41_key_schedule R82 to R84). -/

namespace Sys2Proof.Machine

/-- Phase A's loop state in numbers. -/
def Fill.toSpec (draw : Nat → Byte) (w : Fill) : Nat × Spec.Bytes := (w.pos.toNat, w.table.toBytes draw)

/-- Phase B's loop state in numbers. -/
def Mix.toSpec (draw : Nat → Byte) (w : Mix) : Spec.Loop := ⟨w.pos.toNat, w.j.toNat, w.table.toBytes draw⟩

/-- An iteration of phase A is the next one of the pseudocode (41_key_schedule R82). -/
theorem fillStep_toSpec {stride : Byte} {draw : Nat → Byte} {T : Spec.Bytes} {n : Nat} {w : Fill} (hn : n < 256)
    (h : w.toSpec draw = Spec.phaseA stride.toNat T n) :
    (fillStep stride n w).toSpec draw = Spec.phaseA stride.toNat T (n + 1) := by
  have value : (BitVec.ofNat 8 n).toNat = n := Nat.mod_eq_of_lt hn
  rw [Spec.phaseA, ← h]
  simp only [Fill.toSpec, fillStep, Memory.toBytes_put, BitVec.toNat_add, value]

/-- Phase A is the fill of the pseudocode (41_key_schedule R82). -/
theorem fillTable_toBytes (stride : Byte) (draw : Nat → Byte) (table : Memory) :
    (fillTable stride table).toBytes draw = (Spec.phaseA stride.toNat (table.toBytes draw) 256).2 := by
  obtain ⟨w, hw, e⟩ := fillTable_induct
    (fun n w => w.toSpec draw = Spec.phaseA stride.toNat (table.toBytes draw) n) stride table rfl
    fun _ _ hn h => fillStep_toSpec hn h
  rw [e, ← hw, Fill.toSpec]

section
variable {keyByte : Nat → Byte} {K : Spec.Bytes} {L : Nat} (key : ∀ k, (keyByte k).toNat = K (k % L))
include key

/-- An iteration of phase B is the next one of the pseudocode (41_key_schedule R84). -/
theorem mixStep_toSpec {stride : Byte} {draw : Nat → Byte} {T : Spec.Bytes} {n : Nat} {w : Mix}
    (h : w.toSpec draw = Spec.phaseB stride.toNat L K T n) :
    (mixStep stride keyByte draw w).toSpec draw = Spec.phaseB stride.toNat L K T (n + 1) := by
  rw [Spec.phaseB, ← h]
  simp only [Mix.toSpec, mixStep, Memory.toBytes_swap, Memory.toBytes, BitVec.toNat_add, Nat.mod_add_mod, key]

/-- Phase B is the mixing of the pseudocode (41_key_schedule R84). -/
theorem mixTable_toBytes (stride : Byte) (draw : Nat → Byte) (table : Memory) :
    (mixTable stride keyByte draw table).toBytes draw =
      (Spec.phaseB stride.toNat L K (table.toBytes draw) 768).A := by
  obtain ⟨w, hw, e⟩ := mixTable_induct
    (fun n w => w.toSpec draw = Spec.phaseB stride.toNat L K (table.toBytes draw) n) stride keyByte draw table rfl
    fun _ _ _ h => mixStep_toSpec key h
  rw [e, ← hw, Mix.toSpec]

end

/-- The selector with a stride as `previous`, in numbers (40_selector R73). -/
theorem cs_setWidth_toNat (b stride : Byte) : (cs b (stride.setWidth 32)).toNat = Spec.cs b.toNat stride.toNat := by
  rw [selectorIsThePseudocode, BitVec.toNat_setWidth, Nat.mod_eq_of_lt (by omega)]

theorem Block.stride1_toNat (b : Block) : b.stride1.toNat = Spec.cs (Spec.contents b .key 0) 0 :=
  selectorIsThePseudocode (b.byte .key 0) 0

theorem Block.stride2_toNat (b : Block) :
    b.stride2.toNat = Spec.cs (Spec.contents b .key (1 % b.keyLen.toNat)) (Spec.cs (Spec.contents b .key 0) 0) := by
  rw [Block.stride2, cs_setWidth_toNat, Block.stride1_toNat]
  rfl

/-- The TABLE that SCHEDULE computes is the pseudocode's (41_key_schedule R81). -/
theorem Block.scheduledTable_toBytes (b : Block) :
    b.scheduledTable.toBytes (b.draw .table) =
      Spec.schedule b.keyLen.toNat (Spec.contents b .key) (Spec.contents b .table) := by
  have key (k : Nat) : (b.keyByte k).toNat = Spec.contents b .key (k % b.keyLen.toNat) := rfl
  rw [Block.scheduledTable, mixTable_toBytes key, fillTable_toBytes, Block.stride1_toNat, Block.stride2_toNat,
    Block.contents_table, Spec.schedule]

end Sys2Proof.Machine
end

section
/-! O16, O22 and O34: SCHEDULE, presented to an idle block or pending (41_key_schedule R81, R86, R87). -/

namespace Sys2Proof.Machine

/-- The one issue check of SCHEDULE (60_exceptions R120, step 4). -/
theorem Block.issueError_schedule (b : Block) :
    b.issueError .schedule = if b.keyLen = 0 then some .invalidKey else none := rfl

/-- SCHEDULE with a key ends in the same block whether it is presented or pending (70_reset R140): no issue check fails,
and the schedule reads neither SEQ nor DONE. -/
theorem Block.runCommand_schedule {b : Block} {table : Memory} (ready : b.seq = .idle ∨ b.seq = .busy .schedule)
    (key : b.keyLen ≠ 0) (built : b.scheduledTable = table) :
    b.runCommand .schedule performSchedule =
      { b with table := table, tv := true, ctx := .none, seq := .idle, done := true } := by
  rcases ready with idle | busy
  · have accepted : Block.scheduledTable { b.clearDone with seq := .busy .schedule } = table := by
      rw [← built, Block.scheduledTable, Block.scheduledTable]
      rfl
    rw [Block.runCommand_of_accepted idle (b.issueError_schedule.trans (if_neg key)), performSchedule, accepted]
    rfl
  · rw [Block.runCommand_of_busy busy, performSchedule, built]
    rfl

/-- The meaning of SCHEDULE with a key. The TABLE has a name of its own, so that no use of this evaluates it. -/
theorem exec_schedule {s : State} (ready : Spec.Ready s .schedule) (key : s.block.keyLen ≠ 0) :
    ∃ table, s.block.scheduledTable = table ∧
      exec .schedule s = .next { s with block :=
        { s.block with table := table, tv := true, ctx := .none, seq := .idle, done := true } } := by
  refine ⟨_, rfl, ?_⟩
  rw [exec_eq, performOf, Block.runCommand_schedule ready key rfl]

/-- Settles O34: the check of the key length is SCHEDULE's only one, and it fails. -/
theorem scheduleWithoutKeyIsRejected : Obligations.ScheduleWithoutKeyIsRejected := by
  intro s idle noKey
  rw [exec_eq, Block.runCommand_of_rejected idle (s.block.issueError_schedule.trans (if_pos noKey))]
  rfl

/-- Settles O16: the two phases are the pseudocode's, loop by loop. -/
theorem scheduleBuildsTheTable : Obligations.ScheduleBuildsTheTable := by
  intro s ready key
  obtain ⟨table, built, run⟩ := exec_schedule ready key
  have pseudocode := s.block.scheduledTable_toBytes
  rw [built] at pseudocode
  exact ⟨_, run, fun k _ => congrFun pseudocode k, rfl⟩

/-- Phase A with an odd stride leaves `n` where its walk from 0 is after `n + 1` steps (41_key_schedule R87): no later
write reaches that index. -/
theorem fillTable_read {stride : Byte} (odd : stride.toNat % 2 = 1) (draw : Nat → Byte) (table : Memory) {n : Nat}
    (hn : n < 256) : (fillTable stride table).read draw ((n + 1) * stride.toNat % 256) = BitVec.ofNat 8 n := by
  obtain ⟨w, ⟨-, filled⟩, e⟩ := fillTable_induct (FilledUpTo stride draw) stride table
    ⟨by simp, fun m hm => absurd hm (Nat.not_lt_zero m)⟩ fun _ _ hn h => filledUpTo_fillStep odd hn h
  have position : (BitVec.ofNat 8 (n + 1) * stride).toNat = (n + 1) * stride.toNat % 256 := by simp
  rw [e, ← position, filled n hn]

/-- Settles O22: phase A leaves a permutation and phase B only swaps; the indices 0 and stride1 are the walk's last and
first. -/
theorem scheduleLeavesAPermutation : Obligations.ScheduleLeavesAPermutation := by
  refine ⟨fun s ready key => ?_, fun b => ?_⟩
  · obtain ⟨table, built, run⟩ := exec_schedule ready key
    have permutation := s.block.scheduledTable_permutation
    rw [built] at permutation
    exact ⟨_, run, permutation⟩
  · have placed (n : Nat) (hn : n < 256) :=
      fillTable_read (stride := b.stride1) (cs_odd _ _) (b.draw .table) b.table hn
    have atLast := placed 255 (by decide)
    have atFirst := placed 0 (by decide)
    have last : (255 + 1) * b.stride1.toNat % 256 = 0 := by omega
    have first : (0 + 1) * b.stride1.toNat % 256 = b.stride1.toNat := by omega
    rw [last] at atLast
    rw [first] at atFirst
    exact ⟨placed, atLast, atFirst⟩

end Sys2Proof.Machine
end

section
/-! O23: what the scheduled TABLE depends on (41_key_schedule R85, R88). -/

namespace Sys2Proof.Machine

/-- Phase A with an odd stride overwrites every index, so nothing of the prior array is left (41_key_schedule R88). -/
theorem fillTable_same {stride : Byte} (odd : stride.toNat % 2 = 1) (draw draw' : Nat → Byte) (table table' : Memory) :
    Memory.Same draw draw' (fillTable stride table) (fillTable stride table') := by
  intro k hk
  obtain ⟨n, ⟨⟨first, last⟩, reached⟩, -⟩ := existsUnique_walkPosition odd 0 (BitVec.ofNat 8 k)
  obtain ⟨m, rfl⟩ := Nat.exists_eq_add_of_le' first
  have index : (m + 1) * stride.toNat % 256 = k := by
    simpa [walkPosition_toNat, Nat.mod_eq_of_lt hk] using congrArg BitVec.toNat reached
  rw [← index, fillTable_read odd draw table (by omega), fillTable_read odd draw' table' (by omega)]

/-- Phase B states with the same variables over arrays that read the same. -/
def Mix.Same (draw draw' : Nat → Byte) (w w' : Mix) : Prop :=
  w.pos = w'.pos ∧ w.j = w'.j ∧ Memory.Same draw draw' w.table w'.table

section
variable {draw draw' keyByte keyByte' : Nat → Byte} (key : ∀ k, k < 256 → keyByte k = keyByte' k)
include key

/-- One iteration depends on the bytes of the array and the key bytes at indices below 256 only (41_key_schedule R84). -/
theorem mixStep_same {w w' : Mix} (h : Mix.Same draw draw' w w') (stride : Byte) :
    Mix.Same draw draw' (mixStep stride keyByte draw w) (mixStep stride keyByte' draw' w') := by
  obtain ⟨pos, j, table⟩ := h
  have read := table (w'.pos + stride).toNat (BitVec.isLt _)
  have byte := key (w'.pos + stride).toNat (BitVec.isLt _)
  refine ⟨by simp only [mixStep, pos], by simp only [mixStep, pos, j, read, byte], ?_⟩
  simp only [mixStep, pos, j, read, byte]
  exact table.swap (BitVec.isLt _) (BitVec.isLt _)

theorem mixTable_same {table table' : Memory} (h : Memory.Same draw draw' table table') (stride : Byte) :
    Memory.Same draw draw' (mixTable stride keyByte draw table) (mixTable stride keyByte' draw' table') := by
  rw [mixTable, mixTable]
  obtain ⟨-, -, mixed⟩ := forRange_rel (Mix.Same draw draw') _ _ ⟨0, 0, table⟩ ⟨0, 0, table'⟩ 768 ⟨rfl, rfl, h⟩
    fun _ _ _ _ hxy => mixStep_same key hxy stride
  exact mixed

end

/-- Two blocks with the same key: the same length, all from 256 on being alike, and the same key bytes in range
(41_key_schedule R85, R88). -/
structure Block.SameKey (b c : Block) : Prop where
  nonempty  : b.keyLength ≠ 0
  length    : b.keyLength = c.keyLength ∨ 256 ≤ b.keyLength ∧ 256 ≤ c.keyLength
  bytes     : ∀ k, k < min b.keyLength 256 → b.byte .key k = c.byte .key k

/-- The key indices of the phases are in range (41_key_schedule R85). -/
theorem Block.SameKey.keyByte {b c : Block} (h : b.SameKey c) {k : Nat} (hk : k < 256) : b.keyByte k = c.keyByte k := by
  obtain ⟨nonempty, length, bytes⟩ := h
  have index : k % c.keyLength = k % b.keyLength := by
    rcases length with same | ⟨large, large'⟩
    · rw [same]
    · rw [Nat.mod_eq_of_lt (by omega), Nat.mod_eq_of_lt (by omega)]
  have inKey : k % b.keyLength < b.keyLength := Nat.mod_lt _ (Nat.pos_of_ne_zero nonempty)
  have below : k % b.keyLength ≤ k := Nat.mod_le k b.keyLength
  rw [Block.keyByte, Block.keyByte, index, bytes _ (by omega)]

section
variable {b c : Block} (h : b.SameKey c)
include h

theorem Block.SameKey.stride1 : b.stride1 = c.stride1 := by
  have nonempty := h.nonempty
  rw [Block.stride1, Block.stride1, h.bytes 0 (by omega)]

theorem Block.SameKey.stride2 : b.stride2 = c.stride2 := by
  rw [Block.stride2, Block.stride2, h.stride1, h.keyByte (by decide)]

theorem Block.SameKey.scheduledTable :
    Memory.Same (b.draw .table) (c.draw .table) b.scheduledTable c.scheduledTable := by
  rw [Block.scheduledTable, Block.scheduledTable, h.stride1, h.stride2]
  exact mixTable_same (fun _ hk => h.keyByte hk) (fillTable_same (cs_odd _ _) _ _ _ _) _

end

/-- Settles O23: phase A leaves nothing of the prior TABLE, and phase B reads the key in range. -/
theorem scheduleDependsOnTheKeyOnly : Obligations.ScheduleDependsOnTheKeyOnly := by
  intro s s' ready ready' key key' length bytes
  have same : s.block.SameKey s'.block :=
    ⟨mt (BitVec.eq_of_toNat_eq (y := 0)) key, length.imp_left (congrArg BitVec.toNat), bytes⟩
  have tables := same.scheduledTable
  obtain ⟨table, built, run⟩ := exec_schedule ready key
  obtain ⟨table', built', run'⟩ := exec_schedule ready' key'
  rw [built, built'] at tables
  exact ⟨_, _, run, run', tables⟩

end Sys2Proof.Machine
end

section
/-! O35 and O36, and what the other cipher statements start from: a ready command whose issue checks pass (60_exceptions
R120, 70_reset R140). -/

namespace Sys2Proof.Machine

/-- Issue writes SEQ and DONE, which no pseudocode reads and the end of the engine step writes again (60_exceptions R120,
70_reset R140). -/
theorem complete_performOf_accepted (b : Block) (i : Instr) :
    (performOf i { b.clearDone with seq := .busy i }).complete = (performOf i b).complete := by
  cases i with
  | tcommit =>
    have checked : Block.tableIsPermutation { b.clearDone with seq := .busy .tcommit } = b.tableIsPermutation := rfl
    rw [performOf, performTcommit, performTcommit, checked]
    cases b.tableIsPermutation <;> rfl
  | select | schedule | crypt | cryptCont | scrypt | scryptCont => rfl

/-- A command whose checks pass ends in the same block whether it is presented or pending (70_reset R140). -/
theorem exec_of_ready {s : State} {i : Instr} (ready : Spec.Ready s i) (passes : s.block.issueError i = none) :
    exec i s = .next { s with block := (performOf i s.block).complete } := by
  rw [exec_eq]
  rcases ready with idle | busy
  · rw [Block.runCommand_of_accepted idle passes, complete_performOf_accepted]
  · rw [Block.runCommand_of_busy busy]

/-- A command with a failing check, presented to an idle block, changes DONE, ERR and ERRCODE only (60_exceptions R121). -/
theorem exec_of_rejected {s : State} {i : Instr} {c : ErrCode} (idle : s.block.seq = .idle)
    (fails : s.block.issueError i = some c) :
    exec i s = .next { s with block :=
      { s.block with done := false, err := true, errcode := if s.block.err then s.block.errcode else c.code } } := by
  rw [exec_eq, Block.runCommand_of_rejected idle fails]
  rfl

theorem Block.lengthError_eq_none {b : Block} (fits : b.dataLen.toNat ≤ b.dataCap) : b.lengthError = none :=
  if_neg (Nat.not_lt.mpr fits)

theorem Block.freshError_eq_none {b : Block} (tv : b.tv = true) (fits : b.dataLen.toNat ≤ b.dataCap) :
    b.freshError = none := (if_pos tv).trans (Block.lengthError_eq_none fits)

theorem Block.freshError_of_noTable {b : Block} (noTable : b.tv = false) : b.freshError = some .noTable :=
  if_neg (Bool.not_eq_true _ ▸ noTable)

theorem Block.contError_eq_none {b : Block} {c : Ctx} (context : b.ctx = c) (fits : b.dataLen.toNat ≤ b.dataCap) :
    b.contError c = none := (if_pos context).trans (Block.lengthError_eq_none fits)

theorem Block.contError_of_ne {b : Block} {c : Ctx} (other : b.ctx ≠ c) : b.contError c = some .noContext :=
  if_neg other

/-- Settles O35: both commands check TV first. -/
theorem cipherWithoutTableIsRejected : Obligations.CipherWithoutTableIsRejected := by
  intro s i cipher idle noTable
  rcases cipher with rfl | rfl
  · exact exec_of_rejected (i := .crypt) idle (Block.freshError_of_noTable noTable)
  · exact exec_of_rejected (i := .scrypt) idle (Block.freshError_of_noTable noTable)

/-- Settles O36: each `.CONT` command checks for its own context first. -/
theorem continuationWithoutContextIsRejected : Obligations.ContinuationWithoutContextIsRejected := by
  intro s idle
  exact ⟨fun other => exec_of_rejected (i := .cryptCont) idle (Block.contError_of_ne other),
    fun other => exec_of_rejected (i := .scryptCont) idle (Block.contError_of_ne other)⟩

end Sys2Proof.Machine
end

section
/-! O17 and O18: the generator and the pre-mixing against their pseudocode, on the 256 bytes they reach
(42_standard_cipher R93, R94). -/

namespace Sys2Proof.Machine

open Sys2Proof.Spec

/-- The generator's variables are the pseudocode's loop variables, the array's by its bytes below 256. -/
def Prga.Matches (draw : Nat → Byte) (p : Prga) (w : Loop) : Prop :=
  p.i.toNat = w.i ∧ p.j.toNat = w.j ∧ ∀ k, k < 256 → (p.arr.read draw k).toNat = w.A k

/-- The three facts one by one, so that no use of this evaluates the loop an array came from. -/
theorem Prga.matches_mk {draw : Nat → Byte} {m : Memory} {A : Bytes} {i j : Byte} {i' j' : Nat} (hi : i.toNat = i')
    (hj : j.toNat = j') (h : ∀ k, k < 256 → (m.read draw k).toNat = A k) :
    Prga.Matches draw ⟨i, j, m⟩ ⟨i', j', A⟩ := ⟨hi, hj, h⟩

/-- A swap of two bytes is the pseudocode's swap (00_scope R9). -/
theorem Memory.read_swap_toNat {draw : Nat → Byte} {m : Memory} {A : Bytes}
    (h : ∀ k, k < 256 → (m.read draw k).toNat = A k) (x y : Byte) {k : Nat} (hk : k < 256) :
    ((m.swap draw x.toNat y.toNat).read draw k).toNat = Spec.swap A x.toNat y.toNat k := by
  simp only [Memory.read_swap, apply_ite BitVec.toNat, h x.toNat x.isLt, h y.toNat y.isLt, h k hk, Spec.swap, Spec.set]

/-- An iteration that advances both indices as the pseudocode does, and swaps at them, is the pseudocode's. -/
theorem Prga.matches_swap {draw : Nat → Byte} {m : Memory} {A : Bytes} {i j : Byte} {i' j' : Nat}
    (hi : i.toNat = i') (hj : j.toNat = j') (h : ∀ k, k < 256 → (m.read draw k).toNat = A k) :
    Prga.Matches draw ⟨i, j, m.swap draw i.toNat j.toNat⟩ ⟨i', j', Spec.swap A i' j'⟩ := by
  subst hi hj
  exact ⟨rfl, rfl, fun _ hk => Memory.read_swap_toNat h i j hk⟩

/-- The generator is the pseudocode's loop (42_standard_cipher R94, 43_simple_cipher R105). -/
theorem prgaAfter_matches {draw : Nat → Byte} {p : Prga} {w : Loop} (h : p.Matches draw w) (stride addend : Byte)
    (n : Nat) : (prgaAfter stride addend draw p n).Matches draw (generate stride.toNat addend.toNat w n) := by
  induction n with
  | zero => exact h
  | succ n ih =>
    obtain ⟨hi, hj, arr⟩ := ih
    rw [prgaAfter_succ, prgaStep, generate]
    have index : ((prgaAfter stride addend draw p n).i + stride).toNat =
        ((generate stride.toNat addend.toNat w n).i + stride.toNat) % 256 := by
      rw [BitVec.toNat_add, hi]
    refine Prga.matches_swap index ?_ arr
    rw [BitVec.toNat_add, BitVec.toNat_add, hj, arr _ (BitVec.isLt _), index, Nat.mod_add_mod]

/-- The keystream byte is the pseudocode's (42_standard_cipher R94). -/
theorem keystreamByte_toNat {draw : Nat → Byte} {p : Prga} {w : Loop} (h : p.Matches draw w) :
    (keystreamByte draw p).toNat = w.A ((w.A w.i + w.A w.j) % 256) := by
  obtain ⟨hi, hj, arr⟩ := h
  rw [keystreamByte, arr _ (BitVec.isLt _), BitVec.toNat_add, arr _ p.i.isLt, arr _ p.j.isLt, hi, hj]

/-- A block whose generator array, DATA, CI and CJ are what the keystream loop left has been through the pseudocode's
loop. -/
theorem streamed_of_applyKeystream {b c : Block} {a : Arr} {stride addend : Byte} {p : Prga} {w : Loop} {len : Nat}
    {s : Stream} (start : p.Matches (b.draw a) w)
    (run : applyKeystream stride addend (b.draw a) (b.draw .data) len ⟨p, b.data⟩ = s)
    (epoch : c.epoch = b.epoch) (arr : c.arr a = s.gen.arr) (data : c.data = s.data) (ci : c.ci = s.gen.i)
    (cj : c.cj = s.gen.j) : Streamed b c a stride.toNat addend.toNat w len := by
  have draw (x : Arr) : c.draw x = b.draw x := by rw [Block.draw, Block.draw, epoch]
  obtain ⟨hi, hj, bytes⟩ : s.gen.Matches (b.draw a) (generate stride.toNat addend.toNat w len) := by
    rw [← run, applyKeystream_gen]
    exact prgaAfter_matches start stride addend len
  have byte (n : Nat) : c.byte .data n = s.data.read (b.draw .data) n := by rw [← data, ← draw]; rfl
  refine ⟨fun k hk => ?_, fun n => ?_, ci ▸ hi, cj ▸ hj⟩
  · rw [contents, Block.byte, arr, draw, bytes k hk]
  · have key := keystreamByte_toNat (prgaAfter_matches start stride addend (n + 1))
    rw [contents, byte, ← run, applyKeystream_data]
    split
    · rw [BitVec.toNat_xor, key]
      rfl
    · rfl

/-- IV_LEN is 0 as a word exactly when it is as a number (10_state R25). -/
theorem Block.ivLen_eq_zero_iff (b : Block) : b.ivLen = 0 ↔ b.ivLen.toNat = 0 :=
  (BitVec.toNat_inj (y := 0)).symm

theorem Block.ivLength_eq (b : Block) : b.ivLength = if b.ivLen.toNat = 0 then 256 else b.ivLen.toNat := by
  rw [Block.ivLength]
  exact if_congr b.ivLen_eq_zero_iff rfl rfl

/-- `ivb(k)` is the pseudocode's where WORK is read below 256 only (42_standard_cipher R92). -/
theorem Block.ivByte_toNat {b : Block} {work : Memory} {W : Bytes}
    (h : ∀ k, k < 256 → (work.read (b.draw .work) k).toNat = W k) {k : Nat} (hk : b.ivLen.toNat = 0 → k < 256) :
    (b.ivByte work k).toNat = ivb b.ivLen.toNat (contents b .iv) W k := by
  rw [Block.ivByte, ivb, apply_ite BitVec.toNat]
  by_cases fallback : b.ivLen.toNat = 0
  · rw [if_pos (b.ivLen_eq_zero_iff.mpr fallback), if_pos fallback, h k (hk fallback)]
  · rw [if_neg (mt b.ivLen_eq_zero_iff.mp fallback), if_neg fallback, contents]

/-- A pre-mixing iteration is the pseudocode's (42_standard_cipher R93). -/
theorem premixStep_matches {b : Block} {p : Prga} {w : Loop} {stride : Byte} {n : Nat}
    (h : p.Matches (b.draw .work) (premix stride.toNat b.ivLen.toNat (contents b .iv) w n)) :
    (premixStep stride b.ivByte b.ivLength (b.draw .work) p).Matches (b.draw .work)
      (premix stride.toNat b.ivLen.toNat (contents b .iv) w (n + 1)) := by
  obtain ⟨hi, hj, arr⟩ := h
  rw [premixStep, premix, ← hi, ← hj, ← b.ivLength_eq]
  have index : (p.i + stride).toNat = (p.i.toNat + stride.toNat) % 256 := BitVec.toNat_add _ _
  have inWork (fallback : b.ivLen.toNat = 0) : p.j.toNat % b.ivLength < 256 := by
    rw [b.ivLength_eq, if_pos fallback]
    exact Nat.mod_lt _ (by decide)
  refine Prga.matches_swap index ?_ arr
  rw [BitVec.toNat_add, BitVec.toNat_add, Block.ivByte_toNat arr inWork, arr _ (BitVec.isLt _), index, Nat.mod_add_mod]

/-- After Step 1 WORK is TABLE (42_standard_cipher R91). -/
theorem Block.workCopy_toNat (b : Block) {k : Nat} (hk : k < 256) :
    (b.workCopy.read (b.draw .work) k).toNat = contents b .table k := by
  rw [Block.read_workCopy b _ k hk, contents]

theorem Block.cryptStrideA_toNat (b : Block) :
    b.cryptStrideA.toNat = cryptSa b.ivLen.toNat (contents b .iv) (contents b .table) := by
  rw [Block.cryptStrideA, selectorIsThePseudocode, Block.ivByte_toNat (fun _ => b.workCopy_toNat) fun _ => by decide]
  rfl

theorem Block.cryptStrideB_toNat (b : Block) :
    b.cryptStrideB.toNat =
      cryptSb b.counter.toNat b.ivLen.toNat (contents b .iv) (contents b .table) := by
  rw [Block.cryptStrideB, cs_setWidth_toNat, byteLane_toNat, Block.cryptStrideA_toNat, cryptSb]

/-- The pre-mixing is the pseudocode's, from COUNTER's high lanes and the copy of TABLE (42_standard_cipher R93). -/
theorem Block.premix_matches (b : Block) :
    b.premix.Matches (b.draw .work)
      (Spec.premix (cryptSa b.ivLen.toNat (contents b .iv) (contents b .table)) b.ivLen.toNat (contents b .iv)
        ⟨lane 2 b.counter.toNat, lane 3 b.counter.toNat, contents b .table⟩ 256) := by
  rw [← b.cryptStrideA_toNat]
  refine b.premix_induct (fun n p => p.Matches (b.draw .work) (Spec.premix b.cryptStrideA.toNat b.ivLen.toNat
    (contents b .iv) ⟨lane 2 b.counter.toNat, lane 3 b.counter.toNat, contents b .table⟩ n)) ?_
    fun _ _ _ h => premixStep_matches h
  exact Prga.matches_mk (byteLane_toNat 2 _) (byteLane_toNat 3 _) fun _ => b.workCopy_toNat

/-- The generator at the start of CRYPT's Step 4: the indices restart from COUNTER (42_standard_cipher R94). -/
def Block.cryptStart (b : Block) : Prga := ⟨byteLane 0 b.counter, byteLane 1 b.counter, b.premix.arr⟩

theorem Block.cryptStream_eq (b : Block) :
    b.cryptStream =
      applyKeystream b.cryptStrideB 0 (b.draw .work) (b.draw .data) b.dataLength ⟨b.cryptStart, b.data⟩ := by
  rw [Block.cryptStream, Block.cryptStart]

theorem Block.cryptStart_matches (b : Block) :
    b.cryptStart.Matches (b.draw .work)
      (Spec.cryptStart b.counter.toNat b.ivLen.toNat (contents b .iv) (contents b .table)) := by
  obtain ⟨-, -, mixed⟩ := b.premix_matches
  rw [Block.cryptStart, Spec.cryptStart]
  exact Prga.matches_mk (byteLane_toNat 0 _) (byteLane_toNat 1 _) mixed

/-- CRYPT with a valid TABLE and a length within DATA runs its engine step (42_standard_cipher R91, 70_reset R140). -/
theorem exec_crypt {s : State} (ready : Ready s .crypt) (tv : s.block.tv = true)
    (fits : s.block.dataLen.toNat ≤ s.block.dataCap) :
    exec .crypt s = .next { s with block := (performCrypt s.block).complete } :=
  exec_of_ready ready (Block.freshError_eq_none tv fits)

/-- CRYPT.CONT in its context with a length within DATA runs its engine step (42_standard_cipher R96, 70_reset R140). -/
theorem exec_cryptCont {s : State} (ready : Ready s .cryptCont) (context : s.block.ctx = .std)
    (fits : s.block.dataLen.toNat ≤ s.block.dataCap) :
    exec .cryptCont s = .next { s with block := (performCryptCont s.block).complete } :=
  exec_of_ready ready (Block.contError_eq_none context fits)

/-- Settles O17: each loop is the pseudocode's, iteration by iteration. -/
theorem cryptTransformsData : Obligations.CryptTransformsData := by
  intro s ready tv fits
  refine ⟨_, exec_crypt ready tv fits, ?_, s.block.cryptStrideA_toNat, s.block.cryptStrideB_toNat, rfl⟩
  rw [← Block.cryptStrideB_toNat]
  exact streamed_of_applyKeystream s.block.cryptStart_matches s.block.cryptStream_eq.symm rfl rfl rfl rfl rfl

/-- Settles O18: the generator starts from the saved context and is the pseudocode's. -/
theorem cryptContContinuesTheKeystream : Obligations.CryptContContinuesTheKeystream := by
  intro s ready context fits
  refine ⟨_, exec_cryptCont ready context fits, ?_, rfl⟩
  have start : Prga.Matches (s.block.draw .work) ⟨s.block.ci, s.block.cj, s.block.work⟩
      ⟨s.block.ci.toNat, s.block.cj.toNat, contents s.block .work⟩ := ⟨rfl, rfl, fun _ _ => rfl⟩
  exact streamed_of_applyKeystream start (s := s.block.cryptContStream) rfl rfl rfl rfl rfl rfl

end Sys2Proof.Machine
end

section
/-! O24 and O25: what the keystream of CRYPT depends on (42_standard_cipher R98, R101). -/

namespace Sys2Proof.Machine

open Sys2Proof.Spec

/-- Two blocks with the same operands of CRYPT's keystream: COUNTER, IV_LEN, all its values from 256 on being alike, the IV
bytes in range and TABLE (42_standard_cipher R98, R101). -/
structure Block.SameOperands (b c : Block) : Prop where
  counter : b.counter = c.counter
  ivLen   : b.ivLen = c.ivLen ∨ 256 ≤ b.ivLen.toNat ∧ 256 ≤ c.ivLen.toNat
  iv      : ∀ k, k < min b.ivLen.toNat 256 → b.byte .iv k = c.byte .iv k
  table   : ∀ k, k < 256 → b.byte .table k = c.byte .table k

section
variable {b c : Block} (h : b.SameOperands c)
include h

/-- Both fall back on WORK or neither does (42_standard_cipher R92). -/
theorem Block.SameOperands.ivLen_zero_iff : b.ivLen.toNat = 0 ↔ c.ivLen.toNat = 0 := by
  rcases h.ivLen with same | ⟨large, large'⟩
  · rw [same]
  · omega

/-- The index of an IV byte is a byte modulo the length, so lengths from 256 on give the same index (42_standard_cipher
R101). -/
theorem Block.SameOperands.ivIndex (j : Byte) : j.toNat % c.ivLength = j.toNat % b.ivLength := by
  rcases h.ivLen with same | ⟨large, large'⟩
  · rw [Block.ivLength, Block.ivLength, same]
  · rw [b.ivLength_eq, c.ivLength_eq, if_neg (by omega), if_neg (by omega), Nat.mod_eq_of_lt (by omega),
      Nat.mod_eq_of_lt (by omega)]

/-- `ivb` at an index of the pre-mixing is the same byte (42_standard_cipher R92, R93). -/
theorem Block.SameOperands.ivByte {work work' : Memory} (same : Memory.Same (b.draw .work) (c.draw .work) work work')
    (j : Byte) : b.ivByte work (j.toNat % b.ivLength) = c.ivByte work' (j.toNat % c.ivLength) := by
  rw [h.ivIndex, Block.ivByte, Block.ivByte]
  by_cases fallback : b.ivLen.toNat = 0
  · have index : j.toNat % b.ivLength < 256 := Nat.lt_of_le_of_lt (Nat.mod_le _ _) j.isLt
    rw [if_pos (b.ivLen_eq_zero_iff.mpr fallback), if_pos (c.ivLen_eq_zero_iff.mpr (h.ivLen_zero_iff.mp fallback)),
      same _ index]
  · have inIv : j.toNat % b.ivLength < b.ivLen.toNat := by
      rw [b.ivLength_eq, if_neg fallback]
      exact Nat.mod_lt _ (Nat.pos_of_ne_zero fallback)
    have below : j.toNat % b.ivLength ≤ j.toNat := Nat.mod_le _ _
    rw [if_neg (mt b.ivLen_eq_zero_iff.mp fallback),
      if_neg (mt c.ivLen_eq_zero_iff.mp (mt h.ivLen_zero_iff.mpr fallback)), h.iv _ (by omega)]

theorem Block.SameOperands.workCopy : Memory.Same (b.draw .work) (c.draw .work) b.workCopy c.workCopy := fun k hk => by
  rw [Block.read_workCopy _ _ k hk, Block.read_workCopy _ _ k hk, h.table k hk]

/-- stride_a is selected by `ivb(0)`, the byte at index 0 modulo the length. -/
theorem Block.SameOperands.cryptStrideA : b.cryptStrideA = c.cryptStrideA := by
  have index (length : Nat) : (0 : Byte).toNat % length = 0 := Nat.zero_mod length
  have first := h.ivByte h.workCopy 0
  rw [index, index] at first
  rw [Block.cryptStrideA, Block.cryptStrideA, first]

theorem Block.SameOperands.cryptStrideB : b.cryptStrideB = c.cryptStrideB := by
  rw [Block.cryptStrideB, Block.cryptStrideB, h.counter, h.cryptStrideA]

/-- One pre-mixing iteration is the same over WORK that reads the same (42_standard_cipher R93). -/
theorem Block.SameOperands.premixStep {p q : Prga} (same : Prga.Same (b.draw .work) (c.draw .work) p q) (stride : Byte) :
    Prga.Same (b.draw .work) (c.draw .work) (Machine.premixStep stride b.ivByte b.ivLength (b.draw .work) p)
      (Machine.premixStep stride c.ivByte c.ivLength (c.draw .work) q) := by
  obtain ⟨hi, hj, arr⟩ := same
  have read := arr (q.i + stride).toNat (BitVec.isLt _)
  have iv := h.ivByte arr q.j
  refine ⟨by simp only [Machine.premixStep, hi], by simp only [Machine.premixStep, hi, hj, read, iv], ?_⟩
  simp only [Machine.premixStep, hi, hj, read, iv]
  exact arr.swap (BitVec.isLt _) (BitVec.isLt _)

theorem Block.SameOperands.cryptStart : Prga.Same (b.draw .work) (c.draw .work) b.cryptStart c.cryptStart := by
  have start := Prga.same_of_arr h.workCopy (byteLane 2 c.counter) (byteLane 3 c.counter)
  have mixed : Prga.Same (b.draw .work) (c.draw .work) b.premix c.premix := by
    rw [Block.premix, Block.premix, h.counter, h.cryptStrideA]
    exact forRange_rel (Prga.Same (b.draw .work) (c.draw .work)) _ _ _ _ 256 start fun _ _ _ _ same =>
      h.premixStep same c.cryptStrideA
  obtain ⟨-, -, arr⟩ := mixed
  rw [Block.cryptStart, Block.cryptStart, h.counter]
  exact Prga.same_of_arr arr _ _

end

/-- Byte `n` of CRYPT's keystream (42_standard_cipher R94). -/
def Block.cryptKey (b : Block) (n : Nat) : Byte :=
  keystreamByte (b.draw .work) (prgaAfter b.cryptStrideB 0 (b.draw .work) b.cryptStart (n + 1))

/-- The keystream of CRYPT depends on its operands only (42_standard_cipher R98). -/
theorem Block.SameOperands.cryptKey {b c : Block} (h : b.SameOperands c) (n : Nat) : b.cryptKey n = c.cryptKey n := by
  rw [Block.cryptKey, Block.cryptKey, h.cryptStrideB]
  exact keystreamByte_same (prgaAfter_same h.cryptStart c.cryptStrideB 0 (n + 1))

/-- CRYPT's effect on every DATA byte (42_standard_cipher R94). -/
theorem performCrypt_byte_data (b : Block) (n : Nat) :
    (performCrypt b).complete.byte .data n =
      if n < b.dataLength then b.byte .data n ^^^ b.cryptKey n else b.byte .data n :=
  b.cryptStream_data n

/-- Settles O24: the XOR difference of a transformed byte is its keystream byte. -/
theorem cryptKeystreamDependsOnItsOperandsOnly : Obligations.CryptKeystreamDependsOnItsOperandsOnly := by
  intro s s' ready ready' tv tv' fits fits' counter ivLen iv table
  have same : s.block.SameOperands s'.block := ⟨counter, ivLen, iv, table⟩
  refine ⟨_, _, exec_crypt ready tv fits, exec_crypt ready' tv' fits', fun n hn hn' => ?_⟩
  have difference {b : Block} (inRange : n < b.dataLength) :
      b.byte .data n ^^^ (performCrypt b).complete.byte .data n = b.cryptKey n := by
    rw [performCrypt_byte_data, if_pos inRange, ← BitVec.xor_assoc, BitVec.xor_self, BitVec.zero_xor]
  exact ((difference hn).trans (same.cryptKey n)).trans (difference hn').symm

/-- CRYPT leaves the operands of its keystream as they are (42_standard_cipher R97). -/
theorem performCrypt_sameOperands (b : Block) : (performCrypt b).complete.SameOperands b :=
  ⟨rfl, .inl rfl, fun _ _ => rfl, fun _ _ => rfl⟩

/-- Settles O25: the second run XORs each byte with the keystream byte of the first. -/
theorem cryptTwiceRestoresData : Obligations.CryptTwiceRestoresData := by
  intro s ready tv fits
  refine ⟨_, _, exec_crypt ready tv fits, exec_crypt (.inl rfl) tv fits, fun n => ?_⟩
  have length : (performCrypt s.block).complete.dataLength = s.block.dataLength := rfl
  rw [performCrypt_byte_data, performCrypt_byte_data, (performCrypt_sameOperands s.block).cryptKey, length]
  split
  · rw [BitVec.xor_assoc, BitVec.xor_self, BitVec.xor_zero]
  · rfl

end Sys2Proof.Machine
end

section
/-! O29: the cipher commands over no bytes (42_standard_cipher R100, 43_simple_cipher R106). -/

namespace Sys2Proof.Machine

theorem applyKeystream_zero (stride addend : Byte) (draw dataDraw : Nat → Byte) (s : Stream) :
    applyKeystream stride addend draw dataDraw 0 s = s := rfl

section
variable {b : Block} (empty : b.dataLen = 0)
include empty

theorem Block.dataLength_of_empty : b.dataLength = 0 := congrArg BitVec.toNat empty

theorem Block.cryptStream_of_empty : b.cryptStream = ⟨b.cryptStart, b.data⟩ := by
  rw [Block.cryptStream_eq, Block.dataLength_of_empty empty, applyKeystream_zero]

theorem Block.cryptContStream_of_empty : b.cryptContStream = ⟨⟨b.ci, b.cj, b.work⟩, b.data⟩ := by
  rw [Block.cryptContStream, Block.dataLength_of_empty empty, applyKeystream_zero]

theorem Block.scryptStream_of_empty :
    b.scryptStream = ⟨⟨byteLane 0 b.nonce, byteLane 1 b.nonce, b.table⟩, b.data⟩ := by
  rw [Block.scryptStream, Block.dataLength_of_empty empty, applyKeystream_zero]

theorem Block.scryptContStream_of_empty : b.scryptContStream = ⟨⟨b.ci, b.cj, b.table⟩, b.data⟩ := by
  rw [Block.scryptContStream, Block.dataLength_of_empty empty, applyKeystream_zero]

/-- Over no bytes a `.CONT` form changes nothing before it completes (42_standard_cipher R96, R100). -/
theorem performCryptCont_of_empty : performCryptCont b = b := by
  rw [performCryptCont, Block.cryptContStream_of_empty empty]

theorem performScryptCont_of_empty : performScryptCont b = b := by
  rw [performScryptCont, Block.scryptContStream_of_empty empty]

/-- A length of 0 is within every DATA. -/
theorem Block.fits_of_empty : b.dataLen.toNat ≤ b.dataCap := by
  rw [empty]
  exact Nat.zero_le _

end

/-- Settles O29: the loop over no bytes leaves its start. -/
theorem emptyBufferChangesNoData : Obligations.EmptyBufferChangesNoData := by
  intro s empty
  have fits := Block.fits_of_empty empty
  refine ⟨fun ready tv => ?_, fun ready tv => ?_, fun ready context => ?_, fun ready context => ?_⟩
  · refine ⟨_, exec_crypt ready tv fits, ?_⟩
    simp [Block.cryptStream_of_empty empty, Block.cryptStart]
  · refine ⟨_, exec_of_ready ready (Block.freshError_eq_none tv fits), ?_⟩
    simp [performOf, Block.scryptStream_of_empty empty]
  · rw [exec_cryptCont ready context fits, performCryptCont_of_empty empty, Block.complete]
  · rw [exec_of_ready ready (Block.contError_eq_none context fits), performOf, performScryptCont_of_empty empty,
      Block.complete]

end Sys2Proof.Machine
end

section
/-! O26: a keystream over pieces (42_standard_cipher R95, R96, R99). -/

namespace Sys2Proof.Machine

open Sys2Proof.Spec

/-- The loop over `a` bytes writes the first `a` of the loop over `a + c` (42_standard_cipher R99). -/
theorem applyKeystream_data_first (stride addend : Byte) (draw dataDraw : Nat → Byte) {a n : Nat} (c : Nat)
    (s : Stream) (hn : n < a) :
    (applyKeystream stride addend draw dataDraw a s).data.read dataDraw n =
      (applyKeystream stride addend draw dataDraw (a + c) s).data.read dataDraw n := by
  rw [applyKeystream_data, applyKeystream_data, if_pos hn, if_pos (by omega)]

/-- The generator goes on where it stopped, whatever DATA holds then (42_standard_cipher R95, R96). -/
theorem applyKeystream_gen_rest (stride addend : Byte) (draw dataDraw : Nat → Byte) (a c : Nat) (s : Stream)
    (moved : Memory) :
    (applyKeystream stride addend draw dataDraw c ⟨(applyKeystream stride addend draw dataDraw a s).gen, moved⟩).gen =
      (applyKeystream stride addend draw dataDraw (a + c) s).gen := by
  rw [applyKeystream_gen, applyKeystream_gen, applyKeystream_gen, prgaAfter_add]

/-- The loop over the next `c` bytes, moved to index 0, writes the last `c` of the loop over `a + c`
(42_standard_cipher R99). -/
theorem applyKeystream_data_rest (stride addend : Byte) (draw dataDraw : Nat → Byte) (a : Nat) {c n : Nat}
    (s : Stream) {moved : Memory} (hn : n < c) (move : moved.read dataDraw n = s.data.read dataDraw (a + n)) :
    (applyKeystream stride addend draw dataDraw c
        ⟨(applyKeystream stride addend draw dataDraw a s).gen, moved⟩).data.read dataDraw n =
      (applyKeystream stride addend draw dataDraw (a + c) s).data.read dataDraw (a + n) := by
  rw [applyKeystream_data, applyKeystream_data, if_pos hn, if_pos (by omega), move, applyKeystream_gen,
    ← prgaAfter_add, Nat.add_assoc]

/-- `c` is what a standard cipher command that ran its loop over `len` bytes from `start` left of `b`: idle, with the loop's
variables and its stride saved (42_standard_cipher R95, R96). -/
structure Block.CryptedTo (b c : Block) (stride : Byte) (start : Prga) (len : Nat) : Prop where
  stream  : applyKeystream stride 0 (b.draw .work) (b.draw .data) len ⟨start, b.data⟩ = ⟨⟨c.ci, c.cj, c.work⟩, c.data⟩
  csb     : c.csb = stride
  ctx     : c.ctx = .std
  seq     : c.seq = .idle
  dataCap : c.dataCap = b.dataCap
  epoch   : c.epoch = b.epoch

/-- CRYPT over `n` bytes: neither its strides nor its pre-mixing reads DATA_LEN (42_standard_cipher R93, R94). -/
theorem performCrypt_cryptedTo (b : Block) (n : Word) :
    b.CryptedTo (performCrypt { b with dataLen := n }).complete b.cryptStrideB b.cryptStart n.toNat where
  stream  := (Block.cryptStream_eq { b with dataLen := n }).symm
  csb     := rfl
  ctx     := rfl
  seq     := rfl
  dataCap := rfl
  epoch   := rfl

theorem performCryptCont_cryptedTo {b : Block} (context : b.ctx = .std) (n : Word) :
    b.CryptedTo (performCryptCont { b with dataLen := n }).complete b.csb ⟨b.ci, b.cj, b.work⟩ n.toNat where
  stream  := rfl
  csb     := rfl
  ctx     := context
  seq     := rfl
  dataCap := rfl
  epoch   := rfl

section
variable {b first one : Block} {stride : Byte} {start : Prga} {a : Nat}

theorem Block.CryptedTo.byte_data (h : b.CryptedTo one stride start a) (n : Nat) :
    one.byte .data n =
      (applyKeystream stride 0 (b.draw .work) (b.draw .data) a ⟨start, b.data⟩).data.read (b.draw .data) n := by
  rw [h.stream, Block.byte, Block.draw, h.epoch]
  rfl

/-- The saved context is the loop's variables. -/
theorem Block.CryptedTo.gen (h : b.CryptedTo one stride start a) :
    (applyKeystream stride 0 (b.draw .work) (b.draw .data) a ⟨start, b.data⟩).gen = ⟨one.ci, one.cj, one.work⟩ :=
  congrArg Stream.gen h.stream

/-- CRYPT.CONT over new bytes in DATA goes on from the loop's variables with its stride (42_standard_cipher R96). -/
theorem Block.CryptedTo.performCryptCont (h : b.CryptedTo first stride start a) (c : Word) (moved : Memory) :
    Block.CryptedTo { b with data := moved }
      (Machine.performCryptCont { first with dataLen := c, data := moved }).complete stride
      (applyKeystream stride 0 (b.draw .work) (b.draw .data) a ⟨start, b.data⟩).gen c.toNat := by
  have next := performCryptCont_cryptedTo (b := { first with data := moved }) h.ctx c
  have draw (x : Arr) : Block.draw { first with data := moved } x = Block.draw { b with data := moved } x :=
    congrFun (congrArg Config.resetDraw h.epoch) x
  refine ⟨?_, h.csb, h.ctx, rfl, h.dataCap, h.epoch⟩
  rw [h.gen, ← next.stream, draw, draw, ← h.csb]

/-- After a run over `a` bytes, CRYPT.CONT over the next `c`, moved to DATA[0], completes what one run over `a + c` bytes
gives (42_standard_cipher R99). -/
theorem exec_cryptCont_rest {s : State} {c : Word} {moved : Memory}
    (whole : b.CryptedTo one stride start (a + c.toNat)) (piece : b.CryptedTo s.block stride start a)
    (fits : c.toNat ≤ b.dataCap)
    (move : ∀ n, n < c.toNat → moved.read (b.draw .data) n = b.byte .data (a + n)) :
    ∃ rest,
      exec .cryptCont { s with block := { s.block with dataLen := c, data := moved } } = .next rest ∧
      (∀ n, n < a → s.block.byte .data n = one.byte .data n) ∧
      (∀ n, n < c.toNat → rest.block.byte .data n = one.byte .data (a + n)) ∧
      rest.block.work = one.work ∧ rest.block.ci = one.ci ∧ rest.block.cj = one.cj := by
  have run := exec_cryptCont (s := { s with block := { s.block with dataLen := c, data := moved } }) (.inl piece.seq)
    piece.ctx (piece.dataCap ▸ fits)
  have next := piece.performCryptCont c moved
  have context := applyKeystream_gen_rest stride 0 (b.draw .work) (b.draw .data) a c.toNat ⟨start, b.data⟩ moved
  rw [whole.gen] at context
  obtain ⟨ci, cj, work⟩ := Prga.mk.inj (next.gen.symm.trans context)
  refine ⟨_, run, fun n hn => ?_, fun n hn => ?_, work, ci, cj⟩
  · rw [piece.byte_data, whole.byte_data]
    exact applyKeystream_data_first _ _ _ _ _ _ hn
  · rw [next.byte_data, whole.byte_data]
    exact applyKeystream_data_rest _ _ _ _ _ _ hn (move n hn)

end

/-- Settles O26: both commands run the one loop, and CRYPT.CONT goes on with it. -/
theorem cryptInPiecesIsOneCrypt : Obligations.CryptInPiecesIsOneCrypt := by
  refine ⟨fun s a c moved idle tv fits small move => ?_, fun s a c moved idle context fits small move => ?_⟩
  all_goals have total : (a + c).toNat = a.toNat + c.toNat := BitVec.toNat_add_of_lt small
  · have whole := performCrypt_cryptedTo s.block (a + c)
    rw [total] at whole
    obtain ⟨rest, run, results⟩ := exec_cryptCont_rest
      (s := { s with block := (performCrypt { s.block with dataLen := a }).complete }) whole
      (performCrypt_cryptedTo s.block a) (by omega) move
    exact ⟨_, _, rest, exec_crypt (.inl idle) tv (total ▸ fits), exec_crypt (.inl idle) tv (by dsimp only; omega), run,
      results⟩
  · have whole := performCryptCont_cryptedTo context (a + c)
    rw [total] at whole
    obtain ⟨rest, run, results⟩ := exec_cryptCont_rest
      (s := { s with block := (performCryptCont { s.block with dataLen := a }).complete }) whole
      (performCryptCont_cryptedTo context a) (by omega) move
    exact ⟨_, _, rest, exec_cryptCont (.inl idle) context (total ▸ fits),
      exec_cryptCont (.inl idle) context (by dsimp only; omega), run, results⟩

end Sys2Proof.Machine
end

section
/-! O14: the setup tuples of SCRYPT (43_simple_cipher R104, R110). -/

namespace Sys2Proof.Machine

/-- A word is free in each of its four lanes (00_scope R7). -/
theorem exists_word_of_byteLanes (x₀ x₁ x₂ x₃ : Byte) :
    ∃ w : Word, byteLane 0 w = x₀ ∧ byteLane 1 w = x₁ ∧ byteLane 2 w = x₂ ∧ byteLane 3 w = x₃ := by
  refine ⟨x₀.setWidth 32 <<< (8 * 0) ||| x₁.setWidth 32 <<< (8 * 1) ||| x₂.setWidth 32 <<< (8 * 2) |||
    x₃.setWidth 32 <<< (8 * 3), ?_, ?_, ?_, ?_⟩
  all_goals simp only [byteLane_or, byteLane_shifted, Nat.reduceLT, Nat.reduceEqDiff, if_true, if_false,
    BitVec.ofNat_eq_ofNat, BitVec.or_zero, BitVec.zero_or]

/-- The byte `v XOR 96` has the odd candidate `v` (40_selector R78). -/
theorem selectorCandidate_xor_96 {v : Byte} (odd : v.toNat % 2 = 1) : selectorCandidate (v ^^^ 96) = v := by
  rw [selectorCandidate_of_odd ((xor_96_mod_two v).trans odd), BitVec.xor_assoc, BitVec.xor_self, BitVec.xor_zero]

/-- An odd value other than the first stride is a second stride. -/
theorem cs_xor_96_of_ne {v stride : Byte} (odd : v.toNat % 2 = 1) (other : v ≠ stride) :
    cs (v ^^^ 96) (stride.setWidth 32) = v := by
  have candidate := selectorCandidate_xor_96 odd
  have fresh : v.setWidth 32 ≠ stride.setWidth 32 := fun equal =>
    other (by simpa using congrArg (BitVec.setWidth 8) equal)
  rw [cs_of_candidate_ne (candidate.symm ▸ fresh), candidate]

/-- Settles O14: lanes 0 and 1 are the start, and lanes 2 and 3 are free to turn them into the bytes that select the
strides. -/
theorem noncesReachExactlyTheSetupTuples : Obligations.NoncesReachExactlyTheSetupTuples := by
  intro b i j sa sb
  constructor
  · rintro ⟨nonce, -, -, rfl, rfl⟩
    exact ⟨cs_odd _ _, cs_odd _ _, cs_setWidth_ne _ _⟩
  · rintro ⟨oddA, oddB, differ⟩
    obtain ⟨nonce, lane0, lane1, lane2, lane3⟩ := exists_word_of_byteLanes i j (sa ^^^ 96 ^^^ j) (sb ^^^ 96 ^^^ i)
    have strideA : Block.scryptStrideA { b with nonce := nonce } = sa := by
      rw [Block.scryptStrideA, Block.nonceSeedA, lane1, lane2, BitVec.xor_assoc, BitVec.xor_self, BitVec.xor_zero,
        cs_of_previous_zero, selectorCandidate_xor_96 oddA]
    have strideB : Block.scryptStrideB { b with nonce := nonce } = sb := by
      rw [Block.scryptStrideB, strideA, Block.nonceSeedB, lane0, lane3, BitVec.xor_assoc, BitVec.xor_self,
        BitVec.xor_zero, cs_xor_96_of_ne oddB differ]
    exact ⟨nonce, lane0, lane1, strideA, strideB⟩

end Sys2Proof.Machine
end

section
/-! O19 and O20: SCRYPT and SCRYPT.CONT against their pseudocode (43_simple_cipher R103 to R107). -/

namespace Sys2Proof.Machine

open Sys2Proof.Spec

theorem Block.scryptStrideA_toNat (b : Block) : b.scryptStrideA.toNat = scryptSa b.nonce.toNat := by
  rw [Block.scryptStrideA, selectorIsThePseudocode, Block.nonceSeedA, BitVec.toNat_xor, byteLane_toNat, byteLane_toNat]
  rfl

theorem Block.scryptStrideB_toNat (b : Block) : b.scryptStrideB.toNat = scryptSb b.nonce.toNat := by
  rw [Block.scryptStrideB, cs_setWidth_toNat, Block.nonceSeedB, BitVec.toNat_xor, byteLane_toNat, byteLane_toNat,
    b.scryptStrideA_toNat, scryptSb]

/-- The generator at the start of SCRYPT: the indices are the low lanes of NONCE, the array is TABLE itself
(43_simple_cipher R103, R104). -/
def Block.scryptStart (b : Block) : Prga := ⟨byteLane 0 b.nonce, byteLane 1 b.nonce, b.table⟩

/-- The generator a continuation starts from: the saved indices and TABLE (43_simple_cipher R107). -/
def Block.simpleContext (b : Block) : Prga := ⟨b.ci, b.cj, b.table⟩

theorem Block.scryptStart_matches (b : Block) :
    b.scryptStart.Matches (b.draw .table)
      ⟨lane 0 b.nonce.toNat, lane 1 b.nonce.toNat, contents b .table⟩ :=
  Prga.matches_mk (byteLane_toNat 0 _) (byteLane_toNat 1 _) fun _ _ => rfl

theorem Block.simpleContext_matches (b : Block) :
    b.simpleContext.Matches (b.draw .table) ⟨b.ci.toNat, b.cj.toNat, contents b .table⟩ :=
  Prga.matches_mk rfl rfl fun _ _ => rfl

/-- SCRYPT with a valid TABLE and a length within DATA runs its engine step (43_simple_cipher R103, 70_reset R140). -/
theorem exec_scrypt {s : State} (ready : Ready s .scrypt) (tv : s.block.tv = true)
    (fits : s.block.dataLen.toNat ≤ s.block.dataCap) :
    exec .scrypt s = .next { s with block := (performScrypt s.block).complete } :=
  exec_of_ready ready (Block.freshError_eq_none tv fits)

/-- SCRYPT.CONT in its context with a length within DATA runs its engine step (43_simple_cipher R107, 70_reset R140). -/
theorem exec_scryptCont {s : State} (ready : Ready s .scryptCont) (context : s.block.ctx = .simple)
    (fits : s.block.dataLen.toNat ≤ s.block.dataCap) :
    exec .scryptCont s = .next { s with block := (performScryptCont s.block).complete } :=
  exec_of_ready ready (Block.contError_eq_none context fits)

/-- Settles O19: the loop over TABLE in place is the pseudocode's, iteration by iteration. -/
theorem scryptTransformsDataAndTable : Obligations.ScryptTransformsDataAndTable := by
  intro s ready tv fits
  refine ⟨_, exec_scrypt ready tv fits, ?_, s.block.scryptStrideA_toNat, s.block.scryptStrideB_toNat, rfl⟩
  rw [← Block.scryptStrideA_toNat, ← Block.scryptStrideB_toNat]
  exact streamed_of_applyKeystream s.block.scryptStart_matches (s := s.block.scryptStream) rfl rfl rfl rfl rfl rfl

/-- Settles O20: the same loop, from the saved context with the saved strides. -/
theorem scryptContContinuesTheKeystream : Obligations.ScryptContContinuesTheKeystream := by
  intro s ready context fits
  refine ⟨_, exec_scryptCont ready context fits, ?_, rfl⟩
  exact streamed_of_applyKeystream s.block.simpleContext_matches (s := s.block.scryptContStream) rfl rfl rfl rfl rfl rfl

end Sys2Proof.Machine
end

section
/-! O27: what a run of SCRYPT depends on (43_simple_cipher R104, R105, R108). -/

namespace Sys2Proof.Machine

/-- The generator of SCRYPT after `n` iterations (43_simple_cipher R105). -/
def Block.scryptGen (b : Block) (n : Nat) : Prga :=
  prgaAfter b.scryptStrideA b.scryptStrideB (b.draw .table) b.scryptStart n

/-- Byte `n` of SCRYPT's keystream (43_simple_cipher R105). -/
def Block.scryptKey (b : Block) (n : Nat) : Byte := keystreamByte (b.draw .table) (b.scryptGen (n + 1))

/-- SCRYPT's effect on every DATA byte (43_simple_cipher R105). -/
theorem performScrypt_byte_data (b : Block) (n : Nat) :
    (performScrypt b).complete.byte .data n =
      if n < b.dataLength then b.byte .data n ^^^ b.scryptKey n else b.byte .data n :=
  b.scryptStream_data n

/-- TABLE is the generator's array at the end (43_simple_cipher R103). -/
theorem performScrypt_byte_table (b : Block) (k : Nat) :
    (performScrypt b).complete.byte .table k = (b.scryptGen b.dataLength).arr.read (b.draw .table) k :=
  congrArg (fun g : Prga => g.arr.read (b.draw .table) k) b.scryptStream_gen

/-- The nonce and the TABLE bytes are the operands of SCRYPT's generator (43_simple_cipher R104). -/
theorem Block.scryptGen_same {b c : Block} (nonce : b.nonce = c.nonce)
    (table : Memory.Same (b.draw .table) (c.draw .table) b.table c.table) (n : Nat) :
    Prga.Same (b.draw .table) (c.draw .table) (b.scryptGen n) (c.scryptGen n) := by
  have strideA : b.scryptStrideA = c.scryptStrideA := by
    rw [Block.scryptStrideA, Block.nonceSeedA, nonce, ← Block.nonceSeedA, ← Block.scryptStrideA]
  have strideB : b.scryptStrideB = c.scryptStrideB := by
    rw [Block.scryptStrideB, Block.nonceSeedB, nonce, strideA, ← Block.nonceSeedB, ← Block.scryptStrideB]
  rw [Block.scryptGen, Block.scryptGen, Block.scryptStart, Block.scryptStart, strideA, strideB, nonce]
  exact prgaAfter_same (Prga.same_of_arr table _ _) _ _ n

/-- A run on the output of another, with the same length and keystream, undoes its XOR (43_simple_cipher R108). -/
theorem performScrypt_byte_data_of_output {b c : Block} {n : Nat} (length : c.dataLength = b.dataLength)
    (key : c.scryptKey n = b.scryptKey n) (output : c.byte .data n = (performScrypt b).complete.byte .data n) :
    (performScrypt c).complete.byte .data n = b.byte .data n := by
  rw [performScrypt_byte_data, output, performScrypt_byte_data, length, key]
  split
  · rw [BitVec.xor_assoc, BitVec.xor_self, BitVec.xor_zero]
  · rfl

/-- Settles O27: from the restored TABLE with the same nonce, the generator of the second run is that of the first. -/
theorem scryptFromTheRestoredTableInverts : Obligations.ScryptFromTheRestoredTableInverts := by
  intro s restored ready tv fits table
  have same := Block.scryptGen_same (b := { (performScrypt s.block).complete with table := restored }) (c := s.block)
    rfl table
  refine ⟨_, _, exec_scrypt ready tv fits, exec_scrypt (.inl rfl) tv fits, fun n => ?_, fun k hk => ?_⟩
  · exact performScrypt_byte_data_of_output rfl (keystreamByte_same (same (n + 1))) rfl
  · obtain ⟨-, -, arr⟩ := same s.block.dataLength
    rw [performScrypt_byte_table, performScrypt_byte_table]
    exact arr k hk

end Sys2Proof.Machine
end

section
/-! O28: SCRYPT and SCRYPT.CONT over pieces (43_simple_cipher R105 to R107). -/

namespace Sys2Proof.Machine

open Sys2Proof.Spec

/-- The block after the simple cipher's loop over `n` bytes from `start`, the loop's variables and strides saved: what
SCRYPT and SCRYPT.CONT have in common (43_simple_cipher R105 to R107). -/
def Block.simpleRun (b : Block) (strideA strideB : Byte) (start : Prga) (n : Word) : Block :=
  let s := applyKeystream strideA strideB (b.draw .table) (b.draw .data) n.toNat ⟨start, b.data⟩
  { b with
    dataLen := n, table := s.gen.arr, data := s.data, ci := s.gen.i, cj := s.gen.j
    csa := strideA, csb := strideB, ctx := .simple }

/-- SCRYPT over `n` bytes: neither its strides nor its start depend on DATA_LEN (43_simple_cipher R104). -/
theorem exec_scrypt_eq_simpleRun (s : State) {b : Block} (idle : b.seq = .idle) (tv : b.tv = true) {n : Word}
    (fits : n.toNat ≤ b.dataCap) :
    exec .scrypt { s with block := { b with dataLen := n } } =
      .next { s with block := (b.simpleRun b.scryptStrideA b.scryptStrideB b.scryptStart n).complete } :=
  exec_scrypt (.inl idle) tv fits

/-- SCRYPT.CONT over `n` bytes: the loop with the saved variables and strides (43_simple_cipher R107). -/
theorem exec_scryptCont_eq_simpleRun (s : State) {b : Block} (idle : b.seq = .idle) (context : b.ctx = .simple) {n : Word}
    (fits : n.toNat ≤ b.dataCap) :
    exec .scryptCont { s with block := { b with dataLen := n } } =
      .next { s with block := (b.simpleRun b.csa b.csb b.simpleContext n).complete } := by
  have run := exec_scryptCont (s := { s with block := { b with dataLen := n } }) (.inl idle) context fits
  rw [run, Block.simpleRun, ← context]
  rfl

section
variable (b : Block) (strideA strideB : Byte) (start : Prga)

theorem Block.simpleRun_byte_data (n : Word) (k : Nat) :
    (b.simpleRun strideA strideB start n).complete.byte .data k =
      (applyKeystream strideA strideB (b.draw .table) (b.draw .data) n.toNat ⟨start, b.data⟩).data.read
        (b.draw .data) k := rfl

theorem Block.simpleRun_context (n : Word) :
    (b.simpleRun strideA strideB start n).complete.simpleContext =
      (applyKeystream strideA strideB (b.draw .table) (b.draw .data) n.toNat ⟨start, b.data⟩).gen := rfl

end

/-- After the loop over `a` bytes, SCRYPT.CONT over the next `c`, moved to DATA[0], completes what the loop over `a + c` bytes
gives (43_simple_cipher R107). -/
theorem exec_scryptCont_rest (s : State) {b : Block} {strideA strideB : Byte} {start : Prga} {a c : Word}
    {moved : Memory} (total : (a + c).toNat = a.toNat + c.toNat) (fits : c.toNat ≤ b.dataCap)
    (move : ∀ n, n < c.toNat → moved.read (b.draw .data) n = b.byte .data (a.toNat + n)) :
    let first := (b.simpleRun strideA strideB start a).complete
    let one := (b.simpleRun strideA strideB start (a + c)).complete
    ∃ rest,
      exec .scryptCont { s with block := { first with dataLen := c, data := moved } } = .next rest ∧
      (∀ n, n < a.toNat → first.byte .data n = one.byte .data n) ∧
      (∀ n, n < c.toNat → rest.block.byte .data n = one.byte .data (a.toNat + n)) ∧
      rest.block.table = one.table ∧ rest.block.ci = one.ci ∧ rest.block.cj = one.cj := by
  intro first one
  have run : exec .scryptCont { s with block := { first with dataLen := c, data := moved } } = .next { s with block :=
      (Block.simpleRun { first with data := moved } strideA strideB first.simpleContext c).complete } :=
    exec_scryptCont_eq_simpleRun s (b := { first with data := moved }) rfl rfl fits
  have context :
      (Block.simpleRun { first with data := moved } strideA strideB first.simpleContext c).complete.simpleContext =
        one.simpleContext := by
    rw [Block.simpleRun_context, Block.simpleRun_context, Block.simpleRun_context, total]
    exact applyKeystream_gen_rest _ _ _ _ _ _ _ _
  obtain ⟨ci, cj, table⟩ := Prga.mk.inj context
  refine ⟨_, run, fun n hn => ?_, fun n hn => ?_, table, ci, cj⟩
  · rw [Block.simpleRun_byte_data, Block.simpleRun_byte_data, total]
    exact applyKeystream_data_first _ _ _ _ _ _ hn
  · rw [Block.simpleRun_byte_data, Block.simpleRun_byte_data, Block.simpleRun_context, total]
    exact applyKeystream_data_rest _ _ _ _ _ _ hn (move n hn)

/-- Settles O28: both commands run the one loop, and SCRYPT.CONT goes on with it. -/
theorem scryptInPiecesIsOneScrypt : Obligations.ScryptInPiecesIsOneScrypt := by
  refine ⟨fun s a c moved idle tv fits small move => ?_, fun s a c moved idle context fits small move => ?_⟩
  all_goals have total : (a + c).toNat = a.toNat + c.toNat := BitVec.toNat_add_of_lt small
  · obtain ⟨rest, pieces⟩ := exec_scryptCont_rest s total (by omega) move
    exact ⟨_, _, rest, exec_scrypt_eq_simpleRun s idle tv (total ▸ fits), exec_scrypt_eq_simpleRun s idle tv (by omega),
      pieces⟩
  · obtain ⟨rest, pieces⟩ := exec_scryptCont_rest s total (by omega) move
    exact ⟨_, _, rest, exec_scryptCont_eq_simpleRun s idle context (total ▸ fits),
      exec_scryptCont_eq_simpleRun s idle context (by omega), pieces⟩

end Sys2Proof.Machine
end

section
/-! O21: TCOMMIT, presented to an idle block or pending (44_table_management R113, 60_exceptions R122). -/

namespace Sys2Proof.Machine

/-- The test of TCOMMIT is complete: in a permutation no two indices hold the same byte, so no byte is counted twice
(44_table_management R113). -/
theorem Memory.isPermutation_of_permutation {m : Memory} {draw : Nat → Byte} (h : m.Permutation draw) :
    m.isPermutation draw = true := by
  have distinct : ((List.range 256).map (m.read draw)).Nodup :=
    List.nodup_range.map_on fun k hk l hl e =>
      (h (m.read draw l)).unique ⟨List.mem_range.mp hk, e⟩ ⟨List.mem_range.mp hl, rfl⟩
  refine List.all_eq_true.mpr fun v _ => beq_iff_eq.mpr (List.count_eq_one_of_mem distinct ?_)
  obtain ⟨k, ⟨hk, hv⟩, -⟩ := h (BitVec.ofNat 8 v)
  exact List.mem_map.mpr ⟨k, List.mem_range.mpr hk, hv⟩

theorem Block.tableIsPermutation_iff (b : Block) :
    b.tableIsPermutation = true ↔ b.table.Permutation (b.draw .table) :=
  ⟨Memory.permutation_of_isPermutation, Memory.isPermutation_of_permutation⟩

/-- TCOMMIT has no issue check, so it runs its engine step (60_exceptions R120, 70_reset R140). -/
theorem exec_tcommit {s : State} (ready : Spec.Ready s .tcommit) :
    exec .tcommit s = .next { s with block := (performTcommit s.block).complete } :=
  exec_of_ready ready rfl

/-- Settles O21: the engine step branches on the test, and the test decides whether TABLE is a permutation. -/
theorem tcommitChecksTheTable : Obligations.TcommitChecksTheTable := by
  intro s ready
  rw [exec_tcommit ready, ← Block.tableIsPermutation_iff]
  rcases performTcommit_cases s.block with ⟨valid, e⟩ | ⟨invalid, e⟩
  all_goals rw [e]
  · exact ⟨fun _ => rfl, fun refuted => absurd valid refuted⟩
  · exact ⟨fun valid => absurd valid (Bool.eq_false_iff.mp invalid), fun _ => rfl⟩

end Sys2Proof.Machine
end

section
/-! O56: what a transaction, a command and a step do to TV (44_table_management R111, R113, R115). -/

namespace Sys2Proof.Machine

@[simp] theorem Block.issue_tv (b : Block) (w : Word) : (b.issue w).tv = b.tv := by
  rcases b.issue_cases w with ⟨-, e⟩ | ⟨-, -, e⟩ | ⟨-, i, c, -, -, e⟩ | ⟨-, i, -, -, e⟩
  all_goals rw [e]; rfl

/-- No register write changes TV (44_table_management R115). -/
theorem Block.writeReg_tv (b : Block) (v : Word) (r : Reg) : (b.writeReg v r).tv = b.tv := by
  cases r
  case cmd => exact b.issue_tv v
  case keyLen | ivLen | counter | nonce | dataLen | selIn | selPrev =>
    rw [Block.writeReg, Block.configure]
    split <;> rfl
  all_goals rfl

theorem Block.storeWindow_tv (b : Block) (a : Arr) (k n : Nat) (v : Word) :
    (b.storeWindow a k n v).tv = if a = .table then false else b.tv := by
  rw [Block.storeWindow, Block.writeLanes_eq]
  cases a <;> rfl

/-- A transaction keeps TV, or is a write to the TABLE window of an idle block, which clears TV and ends the context
(44_table_management R111). -/
theorem Block.transact_tv_cases (b : Block) (off : Nat) (t : Transaction) :
    (b.transact off t).1.tv = b.tv ∨
    (b.seq = .idle ∧ (b.transact off t).1.tv = false ∧ (b.transact off t).1.ctx = .none ∧
      (∃ n v, t = .memWrite n v) ∧ 0x300 ≤ off ∧ off < 0x400) := by
  cases t with
  | memRead n =>
    left
    rcases b.hostRead_cases off n with e | ⟨-, e⟩
    all_goals rw [Block.transact, e]
    rfl
  | memWrite n v =>
    rw [Block.transact]
    rcases b.hostWrite_cases off n v with e | ⟨r, -, -, e⟩ | ⟨-, e⟩ | ⟨a, k, region, idle, e⟩
    all_goals rw [e]
    · exact .inl rfl
    · exact .inl (b.writeReg_tv v r)
    · exact .inl rfl
    · by_cases table : a = .table
      · subst table
        exact .inr ⟨idle, b.storeWindow_tv .table k n v, b.storeWindow_ctx .table k n v, ⟨n, v, rfl⟩,
          tableWindow_of_regionAt region⟩
      · exact .inl ((b.storeWindow_tv a k n v).trans (if_neg table))

/-- A transaction while a command is pending leaves TV alone (20_memory R51). -/
theorem Block.transact_tv_of_busy {b : Block} {i : Instr} (busy : b.seq = .busy i) (off : Nat) (t : Transaction) :
    (b.transact off t).1.tv = b.tv := by
  obtain ⟨done, err, errcode, doneIe, errIe, e⟩ := Block.transact_busy busy off t
  rw [e]

/-- Only SCHEDULE and TCOMMIT set TV (44_table_management R115). -/
theorem setter_of_performOf_tv {i : Instr} {b : Block} (before : b.tv = false) (after : (performOf i b).tv = true) :
    i = .schedule ∨ i = .tcommit := by
  cases i with
  | schedule => exact .inl rfl
  | tcommit => exact .inr rfl
  | select | crypt | cryptCont | scrypt | scryptCont => exact absurd after (Bool.eq_false_iff.mp before)

/-- A run that sets TV is SCHEDULE or TCOMMIT, and has completed. -/
theorem Block.setter_of_runCommand {b : Block} {i : Instr} (before : b.tv = false)
    (after : (b.runCommand i (performOf i)).tv = true) :
    (b.runCommand i (performOf i)).seq = .idle ∧ (b.runCommand i (performOf i)).done = true ∧
    (i = .schedule ∨ i = .tcommit) := by
  rcases b.runCommand_cases i (performOf i) with ⟨-, e⟩ | ⟨-, -, e⟩ | ⟨-, c, -, e⟩
  all_goals rw [e] at after ⊢
  · exact ⟨rfl, rfl, setter_of_performOf_tv before after⟩
  · exact ⟨rfl, rfl, setter_of_performOf_tv (b := { b.clearDone with seq := .busy i }) before after⟩
  · exact absurd after (Bool.eq_false_iff.mp before)

/-- No run of a command clears TV, rejected or performed (44_table_management R115). -/
theorem Block.runCommand_tv_of_tv {b : Block} (i : Instr) (before : b.tv = true) :
    (b.runCommand i (performOf i)).tv = true := by
  rcases b.runCommand_cases i (performOf i) with ⟨-, e⟩ | ⟨-, -, e⟩ | ⟨-, c, -, e⟩
  all_goals rw [e]
  · exact performOf_tv_of_tv i before
  · exact performOf_tv_of_tv i (b := { b.clearDone with seq := .busy i }) before
  · exact before

/-- A step that sets TV completes SCHEDULE or TCOMMIT, which was pending or is presented (44_table_management R115). -/
theorem setter_of_step {s t : State} (hs : step s = .next t) (before : s.block.tv = false)
    (after : t.block.tv = true) :
    t.block.seq = .idle ∧ t.block.done = true ∧
    ∃ i, (i = .schedule ∨ i = .tcommit) ∧ (s.block.seq = .busy i ∨ s.presentedCommand = some i) := by
  rcases step_effect hs with ⟨-, e⟩ | effect
  · exact absurd after (e ▸ Bool.false_ne_true)
  · generalize t.block = b at effect after ⊢
    cases effect with
    | nothing => exact absurd after (Bool.eq_false_iff.mp before)
    | host op off =>
      refine absurd after (Bool.eq_false_iff.mp ?_)
      rcases s.block.transact_tv_cases off (scriptTransaction op) with kept | ⟨-, cleared, -⟩
      · exact kept.trans before
      · exact cleared
    | run i ready =>
      obtain ⟨idle, done, setter⟩ := Block.setter_of_runCommand before after
      exact ⟨idle, done, i, setter, ready⟩
    | hostThenRun i off t busy =>
      have kept := Block.transact_tv_of_busy busy off t
      obtain ⟨idle, done, setter⟩ := Block.setter_of_runCommand (kept.trans before) after
      exact ⟨idle, done, i, setter, .inl busy⟩

/-- A step that clears TV is a reset, or the host writes the TABLE window of an idle block, which ends the context too
(44_table_management R111, R115). -/
theorem clearer_of_step {s t : State} (hs : step s = .next t) (before : s.block.tv = true)
    (after : t.block.tv = false) :
    s.nextMove.1 = .reset ∨
    (s.block.seq = .idle ∧ t.block.ctx = .none ∧
      ∃ addr n v, s.master.current = some (.write addr n v) ∧ s.block.base + 0x300 ≤ addr ∧
        addr < s.block.base + 0x400) := by
  rcases step_effect hs with ⟨asserted, -⟩ | effect
  · exact .inl asserted
  · generalize t.block = b at effect after ⊢
    cases effect with
    | nothing => exact absurd before (Bool.eq_false_iff.mp after)
    | host op off line inside =>
      rcases s.block.transact_tv_cases off (scriptTransaction op) with kept | ⟨idle, -, none, write, low, high⟩
      · exact absurd (kept.trans before) (Bool.eq_false_iff.mp after)
      · obtain ⟨addr, n, v, rfl, range⟩ := tableWrite_of_transact_ctx inside write low high
        exact .inr ⟨idle, none, addr, n, v, line, range⟩
    | run i => exact absurd (Block.runCommand_tv_of_tv i before) (Bool.eq_false_iff.mp after)
    | hostThenRun i off t busy =>
      have still := (Block.transact_tv_of_busy busy off t).trans before
      exact absurd (Block.runCommand_tv_of_tv i still) (Bool.eq_false_iff.mp after)

/-- Settles O56, by the effects a step can have. -/
theorem tableValidChangesOnlyAtItsEvents : Obligations.TableValidChangesOnlyAtItsEvents :=
  fun _ _ hs => ⟨setter_of_step hs, clearer_of_step hs⟩

end Sys2Proof.Machine
end

section
/-! O55, O30 and O31: the codes of 60_exceptions R119, their capture (R118), and that ERRCODE holds one of them, or 0
while ERR = 0. -/

namespace Sys2Proof.Machine

/-- With ERR set a capture changes nothing (60_exceptions R118). -/
theorem Block.capture_of_err {b : Block} (err : b.err = true) (c : ErrCode) : b.capture c = b := by
  calc b.capture c
    _ = { b with err := b.err } := by rw [Block.capture, if_pos err, ← err]
    _ = b := rfl

/-- With ERR clear a capture sets ERR and ERRCODE (60_exceptions R118). -/
theorem Block.capture_of_not_err {b : Block} (clear : b.err = false) (c : ErrCode) :
    b.capture c = { b with err := true, errcode := c.code } := by
  rw [Block.capture, clear, if_neg Bool.false_ne_true]

/-- Settles O30: a first capture leaves ERR set, so a second one changes nothing. -/
theorem captureKeepsTheFirstCode : Obligations.CaptureKeepsTheFirstCode :=
  fun b c d => ⟨fun clear => Block.capture_of_not_err clear c, fun err => Block.capture_of_err err c,
    Block.capture_of_err (b.capture_err c) d⟩

/-- Settles O31: eight closed values. -/
theorem errorCodesAreTheTable : Obligations.ErrorCodesAreTheTable := ⟨rfl, rfl, rfl, rfl, rfl, rfl, rfl, rfl⟩

/-- ERRCODE is at most 8, and 0 while ERR = 0 (10_state R39, 60_exceptions R119). -/
def Block.ErrcodeLegal (b : Block) : Prop := b.errcode.toNat ≤ 8 ∧ (b.err = false → b.errcode = 0)

theorem ErrCode.code_le (c : ErrCode) : c.code.toNat ≤ 8 := by cases c <;> decide

/-- The property reads ERR and ERRCODE only. -/
theorem Block.ErrcodeLegal.of_same {b b' : Block} (h : b.ErrcodeLegal) (err : b'.err = b.err)
    (errcode : b'.errcode = b.errcode) : b'.ErrcodeLegal := by
  rw [Block.ErrcodeLegal, err, errcode]
  exact h

theorem Block.ErrcodeLegal.capture {b : Block} (h : b.ErrcodeLegal) (c : ErrCode) : (b.capture c).ErrcodeLegal := by
  refine ⟨?_, nofun⟩
  rw [Block.capture_errcode]
  split
  · exact h.1
  · exact c.code_le

/-- A STATUS write clears ERR and ERRCODE together, or neither (60_exceptions R125). -/
theorem Block.ErrcodeLegal.writeStatus {b : Block} (h : b.ErrcodeLegal) (v : Word) :
    (b.writeStatus v).ErrcodeLegal := by
  cases clears : v.getLsbD 2 with
  | true =>
    have errcode : (b.writeStatus v).errcode = 0 := by rw [Block.writeStatus_errcode, if_pos clears]
    exact ⟨errcode ▸ Nat.zero_le 8, fun _ => errcode⟩
  | false =>
    refine h.of_same ?_ ?_
    · rw [Block.writeStatus_err, clears, Bool.not_false, Bool.and_true]
    · rw [Block.writeStatus_errcode, clears, if_neg Bool.false_ne_true]

theorem Block.ErrcodeLegal.issue {b : Block} (h : b.ErrcodeLegal) (w : Word) : (b.issue w).ErrcodeLegal := by
  have cleared : b.clearDone.ErrcodeLegal := h.of_same rfl rfl
  rcases b.issue_cases w with ⟨-, e⟩ | ⟨-, -, e⟩ | ⟨-, i, c, -, -, e⟩ | ⟨-, i, -, -, e⟩
  all_goals rw [e]
  · exact h.capture _
  · exact cleared.capture _
  · exact cleared.capture _
  · exact h.of_same rfl rfl

theorem Block.storeWindow_err (b : Block) (a : Arr) (k n : Nat) (v : Word) : (b.storeWindow a k n v).err = b.err := by
  rw [Block.storeWindow, Block.writeLanes_eq]
  cases a <;> rfl

theorem Block.storeWindow_errcode (b : Block) (a : Arr) (k n : Nat) (v : Word) :
    (b.storeWindow a k n v).errcode = b.errcode := by
  rw [Block.storeWindow, Block.writeLanes_eq]
  cases a <;> rfl

/-- Every transaction captures, clears or leaves the code. -/
theorem Block.ErrcodeLegal.transact {b : Block} (h : b.ErrcodeLegal) (off : Nat) (t : Transaction) :
    (b.transact off t).1.ErrcodeLegal := by
  generalize hb : (b.transact off t).1 = b'
  have effect := b.transact_effect off t
  rw [hb] at effect
  cases effect with
  | nothing => exact h
  | busyAccess => exact h.capture _
  | status v => exact h.writeStatus v
  | inten v => exact h.of_same rfl rfl
  | configure r v _ _ stored =>
    obtain ⟨-, -, -, err, errcode⟩ := Block.configured_keeps stored
    exact h.of_same err errcode
  | store a k n v => exact h.of_same (b.storeWindow_err a k n v) (b.storeWindow_errcode a k n v)
  | issue w => exact h.issue w

/-- TCOMMIT is the one command whose engine step can capture a code (60_exceptions R122). -/
theorem Block.ErrcodeLegal.performOf {b : Block} (h : b.ErrcodeLegal) (i : Instr) :
    (Machine.performOf i b).ErrcodeLegal := by
  cases i with
  | tcommit =>
    rw [Machine.performOf]
    rcases performTcommit_cases b with ⟨-, e⟩ | ⟨-, e⟩
    all_goals rw [e]
    · exact h.of_same rfl rfl
    · exact h.capture _
  | select | schedule | crypt | cryptCont | scrypt | scryptCont => exact h.of_same rfl rfl

/-- The run of a command captures the failing check's code, or what its engine step captures. -/
theorem Block.ErrcodeLegal.runCommand {b : Block} (h : b.ErrcodeLegal) (i : Instr) :
    (b.runCommand i (Machine.performOf i)).ErrcodeLegal := by
  have accepted : Block.ErrcodeLegal { b.clearDone with seq := .busy i } := h.of_same rfl rfl
  have cleared : b.clearDone.ErrcodeLegal := h.of_same rfl rfl
  rcases b.runCommand_cases i (Machine.performOf i) with ⟨-, e⟩ | ⟨-, -, e⟩ | ⟨-, c, -, e⟩
  all_goals rw [e]
  · exact (h.performOf i).of_same rfl rfl
  · exact (accepted.performOf i).of_same rfl rfl
  · exact cleared.capture c

/-- Settles O55: each kind of step keeps the property, and a reset sets ERRCODE to 0. -/
theorem stepKeepsErrcodeLegal : Obligations.StepKeepsErrcodeLegal := fun _ _ legal hs =>
  step_keeps (P := Block.ErrcodeLegal) (fun _ off t h => h.transact off t) (fun _ i _ h => h.runCommand i)
    (fun _ _ => ⟨Nat.zero_le 8, fun _ => rfl⟩) legal hs

end Sys2Proof.Machine
end

section
/-! O32, O33 and O37: the issue checks in their order, and what a rejection reports (60_exceptions R120, R121). -/

namespace Sys2Proof.Machine

open Sys2Proof.Spec

theorem Block.lengthError_of_gt {b : Block} (long : b.dataCap < b.dataLen.toNat) : b.lengthError = some .lenRange :=
  if_pos long

theorem Block.freshError_of_tv {b : Block} (tv : b.tv = true) : b.freshError = b.lengthError := if_pos tv

theorem Block.contError_of_ctx {b : Block} {c : Ctx} (context : b.ctx = c) : b.contError c = b.lengthError :=
  if_pos context

/-- Settles O37: the length check is the last one, and it fails. -/
theorem lengthBeyondCapacityIsRejected : Obligations.LengthBeyondCapacityIsRejected := by
  intro s i idle long passes
  have length := Block.lengthError_of_gt long
  rcases passes with ⟨rfl | rfl, tv⟩ | ⟨rfl, context⟩ | ⟨rfl, context⟩
  · exact exec_of_rejected (i := .crypt) idle ((Block.freshError_of_tv tv).trans length)
  · exact exec_of_rejected (i := .scrypt) idle ((Block.freshError_of_tv tv).trans length)
  · exact exec_of_rejected (i := .cryptCont) idle ((Block.contError_of_ctx context).trans length)
  · exact exec_of_rejected (i := .scryptCont) idle ((Block.contError_of_ctx context).trans length)

theorem Block.lengthError_ne_busyCmd (b : Block) : b.lengthError ≠ some .busyCmd := by
  unfold Block.lengthError
  split <;> nofun

theorem Block.freshError_ne_busyCmd (b : Block) : b.freshError ≠ some .busyCmd := by
  unfold Block.freshError
  split
  · exact b.lengthError_ne_busyCmd
  · nofun

theorem Block.contError_ne_busyCmd (b : Block) (c : Ctx) : b.contError c ≠ some .busyCmd := by
  unfold Block.contError
  split
  · exact b.lengthError_ne_busyCmd
  · nofun

/-- BUSY_CMD is the code of step 1 only (60_exceptions R120). -/
theorem Block.issueError_ne_busyCmd (b : Block) (i : Instr) : b.issueError i ≠ some .busyCmd := by
  cases i with
  | select | tcommit => nofun
  | schedule =>
    rw [Block.issueError_schedule]
    split <;> nofun
  | crypt | scrypt => exact b.freshError_ne_busyCmd
  | cryptCont | scryptCont => exact b.contError_ne_busyCmd _

/-- The report of a word presented to an idle block and not accepted (60_exceptions R121). -/
theorem Block.clearDone_capture_of_idle {b : Block} (idle : b.seq = .idle) (c : ErrCode) :
    b.clearDone.capture c =
      { b with
        done := if b.isBusy then b.done else false
        err := true
        errcode := if b.err then b.errcode else c.code } := by
  rw [Block.isBusy_idle idle, if_neg Bool.false_ne_true]
  rfl

/-- Settles O33: each way to be turned away captures one code, and an accepted word changes SEQ. -/
theorem rejectedCommandOnlyReports : Obligations.RejectedCommandOnlyReports := by
  intro b w unchanged
  have notBusy (idle : b.seq = .idle) {c : ErrCode} (other : c ≠ .busyCmd) : b.isBusy = true ↔ c = .busyCmd := by
    rw [Block.isBusy_idle idle]
    exact ⟨nofun, fun same => absurd same other⟩
  rcases b.issue_cases w with ⟨busy, e⟩ | ⟨idle, -, e⟩ | ⟨idle, i, c, -, fails, e⟩ | ⟨idle, i, -, -, e⟩
  all_goals rw [e] at unchanged ⊢
  · exact ⟨.busyCmd, by rw [if_pos busy]; rfl, fun _ => rfl, fun _ => busy⟩
  · exact ⟨.illegalCmd, Block.clearDone_capture_of_idle idle _, notBusy idle nofun⟩
  · refine ⟨c, Block.clearDone_capture_of_idle idle c, notBusy idle ?_⟩
    rintro rfl
    exact b.issueError_ne_busyCmd i fails
  · rw [idle] at unchanged
    cases unchanged

/-- Steps 4 and 8 for SCHEDULE (60_exceptions R120). -/
theorem Block.accept_schedule (b : Block) :
    b.accept .schedule = if b.keyLen.toNat = 0 then b.capture .invalidKey else { b with seq := .busy .schedule } := by
  have zero : b.keyLen = 0 ↔ b.keyLen.toNat = 0 := BitVec.toNat_inj.symm
  split
  · next noKey => exact Block.accept_of_some (b.issueError_schedule.trans (if_pos (zero.mpr noKey)))
  · next key => exact Block.accept_of_none (b.issueError_schedule.trans (if_neg (mt zero.mp key)))

/-- Steps 7 and 8 for a cipher command whose other check passed (60_exceptions R120). -/
theorem Block.accept_of_lengthError {b : Block} {i : Instr} (checks : b.issueError i = b.lengthError) :
    b.accept i = if b.dataLen.toNat > b.dataCap then b.capture .lenRange else { b with seq := .busy i } := by
  split
  · next long => exact Block.accept_of_some (checks.trans (Block.lengthError_of_gt long))
  · next fits => exact Block.accept_of_none (checks.trans (Block.lengthError_eq_none (Nat.not_lt.mp fits)))

/-- Steps 6 to 8 for a command that starts a keystream (60_exceptions R120). -/
theorem Block.accept_of_freshError {b : Block} {i : Instr} (checks : b.issueError i = b.freshError) :
    b.accept i =
      if b.tv = false then b.capture .noTable
      else if b.dataLen.toNat > b.dataCap then b.capture .lenRange
      else { b with seq := .busy i } := by
  by_cases tv : b.tv = false
  · rw [if_pos tv]
    exact Block.accept_of_some (checks.trans (Block.freshError_of_noTable tv))
  · rw [if_neg tv]
    exact Block.accept_of_lengthError (checks.trans (Block.freshError_of_tv (Bool.not_eq_false _ ▸ tv)))

/-- Steps 5, 7 and 8 for a `.CONT` command (60_exceptions R120). -/
theorem Block.accept_of_contError {b : Block} {i : Instr} {c : Ctx} (checks : b.issueError i = b.contError c) :
    b.accept i =
      if b.ctx ≠ c then b.capture .noContext
      else if b.dataLen.toNat > b.dataCap then b.capture .lenRange
      else { b with seq := .busy i } := by
  by_cases context : b.ctx = c
  · rw [if_neg (not_not.mpr context)]
    exact Block.accept_of_lengthError (checks.trans (Block.contError_of_ctx context))
  · rw [if_pos context]
    exact Block.accept_of_some (checks.trans (Block.contError_of_ne context))

/-- Settles O32: a busy block and an illegal word end the issue at steps 1 and 3; a legal word is one of the seven
commands, and of the checks in the word's fields only that command's own remain. -/
theorem issueRunsTheChecksInOrder : Obligations.IssueRunsTheChecksInOrder := by
  intro b w
  refine (b.hostWrite_regOffset .cmd w).trans (congrArg (·, Reply.okay 0) ?_)
  rw [Block.writeReg]
  cases busy : b.isBusy with
  | true => exact Block.issue_of_busy busy w
  | false =>
    have idle := b.not_isBusy_iff.mp busy
    by_cases legal : legalFields w.toNat
    · obtain ⟨i, word⟩ := (exists_decode_iff_legalFields w).mpr legal
      rw [Block.issue_of_command idle word]
      simp only [word, decode_eq_command_iff.mp word, Decoded.instr?, Option.elim_some]
      cases i with
      | select => rfl
      | tcommit => rfl
      | schedule =>
        rw [Block.accept_schedule]
        by_cases noKey : b.keyLen.toNat = 0
        all_goals simp [commandWord, Block.clearDone, noKey]
      | crypt | scrypt => rw [Block.accept_of_freshError rfl]; simp [commandWord, Block.clearDone]
      | cryptCont | scryptCont => rw [Block.accept_of_contError rfl]; simp [commandWord, Block.clearDone]
    · have unlisted : ¬ ∃ i, decode w = .command i := mt (exists_decode_iff_legalFields w).mp legal
      rw [Block.issue_of_refused idle unlisted, if_neg Bool.false_ne_true, if_pos legal]
      rfl

end Sys2Proof.Machine
end

section
/-! O38, O39 and O42: the clearing of a captured error, the interrupt line, and the bus error (60_exceptions R123, R125,
R126). -/

namespace Sys2Proof.Machine

open Sys2Proof.Spec

/-- Bit `k` of a word, as a number. -/
theorem getLsbD_eq_decide (v : Word) (k : Nat) : v.getLsbD k = decide (v.toNat / 2 ^ k % 2 = 1) :=
  Nat.testBit_eq_decide_div_mod_eq

theorem and_not_decide (x : Bool) (p : Prop) [Decidable p] : (x && !decide p) = if p then false else x := by
  by_cases p <;> simp [*]

/-- Settles O38: bits 1 and 2 of the data as numbers. -/
theorem statusWriteClearsDoneAndError : Obligations.StatusWriteClearsDoneAndError := by
  intro b v
  refine (b.hostWrite_regOffset .status v).trans (congrArg (·, Reply.okay 0) ?_)
  simp only [Block.writeReg, Block.writeStatus, getLsbD_eq_decide, and_not_decide, decide_eq_true_eq]
  rfl

theorem Block.irq_iff (b : Block) :
    b.irq = true ↔ (b.done = true ∧ b.doneIe = true) ∨ (b.err = true ∧ b.errIe = true) := by
  rw [Block.irq, Bool.or_eq_true, Bool.and_eq_true, Bool.and_eq_true]

/-- Settles O39. -/
theorem interruptLineIsTheFormula : Obligations.InterruptLineIsTheFormula := by
  refine ⟨Block.irq_iff, fun _ _ => rfl, fun b v => ?_⟩
  refine (b.hostWrite_regOffset .inten v).trans (congrArg (·, Reply.okay 0) ?_)
  simp only [Block.writeReg, Block.writeInten, getLsbD_eq_decide, pow_zero, pow_one, Nat.div_one]

/-- An access that breaks the size and alignment rules is a bus error (60_exceptions R123). -/
theorem Block.transact_of_not_accessOk (b : Block) {off : Nat} {t : Transaction}
    (bad : ¬ accessOk off (sizeOfAccess t) = true) : b.transact off t = (b, .busError) := by
  cases t with
  | memRead n => exact if_neg bad
  | memWrite n v => exact if_neg bad

/-- Every other access is answered OKAY, in every region, idle or busy (20_memory R42). -/
theorem Block.transact_resp_of_accessOk (b : Block) {off : Nat} {t : Transaction}
    (legal : accessOk off (sizeOfAccess t) = true) : (b.transact off t).2.resp = .okay := by
  cases t with
  | memRead n =>
    simp only [Block.transact, Block.hostRead, if_pos (show accessOk off n = true from legal)]
    cases regionAt b.dataCap off with
    | register r => rfl
    | reserved => rfl
    | window a k => cases b.isBusy <;> rfl
  | memWrite n v =>
    simp only [Block.transact, Block.hostWrite, if_pos (show accessOk off n = true from legal)]
    cases regionAt b.dataCap off <;> rfl

/-- Settles O42: the port's own test of the access is 20_memory R45 and R46. -/
theorem busErrorsAreExactlyTheBadAccesses : Obligations.BusErrorsAreExactlyTheBadAccesses := by
  intro b off t
  rw [← accessOk_iff]
  refine ⟨⟨fun slverr legal => ?_, fun bad => ?_⟩, b.transact_of_not_accessOk⟩
  · rw [b.transact_resp_of_accessOk legal] at slverr
    cases slverr
  · rw [b.transact_of_not_accessOk bad]
    rfl

end Sys2Proof.Machine
end

section
/-! O48: a pending command reads none of what a transaction can change meanwhile (60_exceptions R124, 30_encoding R67). -/

namespace Sys2Proof.Machine

/-- The two blocks differ at most in ERR, ERRCODE and INTEN. -/
def Block.SameButReports (b c : Block) : Prop :=
  c = { b with err := c.err, errcode := c.errcode, doneIe := c.doneIe, errIe := c.errIe }

/-- The engine step reads neither DONE, ERR, ERRCODE nor INTEN but to capture a code, and its end writes DONE
(70_reset R140). -/
theorem complete_performOf_of_flags (i : Instr) (b : Block) (done err : Bool) (errcode : Byte) (doneIe errIe : Bool) :
    (performOf i b).complete.SameButReports
      (performOf i { b with done, err, errcode, doneIe, errIe }).complete := by
  cases i with
  | tcommit =>
    have tested : Block.tableIsPermutation { b with done, err, errcode, doneIe, errIe } = b.tableIsPermutation := rfl
    rw [performOf, performTcommit, performTcommit, tested]
    cases b.tableIsPermutation <;> rfl
  | schedule =>
    have built : Block.scheduledTable { b with done, err, errcode, doneIe, errIe } = b.scheduledTable := by
      rw [Block.scheduledTable, Block.scheduledTable]
      rfl
    rw [performOf, performSchedule, performSchedule, built]
    generalize b.scheduledTable = table
    rfl
  | select | crypt | cryptCont | scrypt | scryptCont => rfl

/-- Settles O48: while a command is pending a transaction changes STATUS, ERRCODE and INTEN at most. -/
theorem transactionsDoNotAffectThePendingCommand : Obligations.TransactionsDoNotAffectThePendingCommand := by
  intro s i off t busy
  obtain ⟨done, err, errcode, doneIe, errIe, e⟩ := Block.transact_busy busy off t
  have busy' := Block.transact_seq_of_busy busy off t
  refine ⟨_, _, exec_eq i s, exec_eq i _, ?_⟩
  dsimp only
  rw [Block.runCommand_of_busy busy, Block.runCommand_of_busy busy', e]
  exact congrArg (fun b => { s with block := b }) (complete_performOf_of_flags i s.block done err errcode doneIe errIe)

end Sys2Proof.Machine
end

section
/-! O5, O8, O49, O50 and O51: the engine's move, the block after reset, and what no step but a reset discards or redraws
(70_reset R136 to R141). -/

namespace Sys2Proof.Machine

open Sys2Proof.Spec

theorem State.engineMove_of_idle {s : State} (idle : s.block.seq = .idle) : s.engineMove = .next s := by
  rw [State.engineMove, idle]

theorem State.engineMove_of_busy {s : State} {i : Instr} (busy : s.block.seq = .busy i) : s.engineMove = exec i s := by
  rw [State.engineMove, busy]

/-- Settles O5. -/
theorem stepRunsThePendingCommand : Obligations.StepRunsThePendingCommand := by
  intro s rest schedule
  rw [step_of_schedule schedule, State.move]
  exact ⟨fun i busy => State.engineMove_of_busy busy, fun idle => State.engineMove_of_idle idle⟩

/-- Settles O8. -/
theorem pendingCommandCompletesNext : Obligations.PendingCommandCompletesNext := fun _ _ empty busy =>
  ⟨_, step_of_busy empty busy, Block.complete_seq _, Block.complete_done _, rfl⟩

/-- An array just reset has no written byte, so each reads as its draw (10_state R32). -/
theorem Block.byte_reset (p : Parameters) (epoch : Nat) (a : Arr) (k : Nat) :
    (Block.reset p epoch).byte a k = Config.resetDraw epoch a k := by
  rw [Block.byte, Block.reset_arr, Block.draw, Block.reset_epoch]
  rfl

theorem Block.statusWord_reset (p : Parameters) (epoch : Nat) : (Block.reset p epoch).statusWord = 0 :=
  BitVec.eq_of_toNat_eq (Block.statusWord_toNat _)

theorem Block.intenWord_reset (p : Parameters) (epoch : Nat) : (Block.reset p epoch).intenWord = 0 :=
  BitVec.eq_of_toNat_eq (Block.intenWord_toNat _)

/-- Settles O49: each register is a field of `BlockState.reset`, or a word made of such fields. -/
theorem resetSetsTheListedValues : Obligations.ResetSetsTheListedValues := fun p epoch =>
  ⟨rfl, Block.statusWord_reset p epoch, rfl, Block.intenWord_reset p epoch, rfl, rfl, rfl, rfl, rfl, rfl, rfl, rfl, rfl,
    rfl, rfl, Block.byte_reset p epoch⟩

/-- No command changes the configuration or the draws, accepted or rejected (70_reset R138). -/
theorem Block.runCommand_platform (b : Block) (i : Instr) :
    (b.runCommand i (performOf i)).toParameters = b.toParameters ∧
    (b.runCommand i (performOf i)).epoch = b.epoch := by
  rcases b.runCommand_cases i (performOf i) with ⟨-, e⟩ | ⟨-, -, e⟩ | ⟨-, c, -, e⟩
  all_goals rw [e]
  · exact ⟨performOf_toParameters i b, performOf_epoch i b⟩
  · exact ⟨performOf_toParameters i _, performOf_epoch i _⟩
  · exact ⟨rfl, rfl⟩

/-- Settles O50: a reset keeps of the block its parameters and its count of resets, which no command changes. -/
theorem resetDiscardsThePendingCommand : Obligations.ResetDiscardsThePendingCommand := by
  intro s rest schedule
  refine ⟨step_of_schedule schedule, fun i t _ performed => ?_⟩
  obtain ⟨parameters, epoch⟩ := s.block.runCommand_platform i
  rw [exec_eq] at performed
  cases performed
  rw [State.resetMove_block, State.resetMove_block, parameters, epoch]

theorem lt_of_blockOffset {base addr off : Nat} (inside : blockOffset base addr = some off) :
    off < Config.apertureSize := by
  have address := eq_of_blockOffset inside
  by_contra beyond
  rw [blockOffset_outside (.inr (by omega))] at inside
  cases inside

/-- The host's move is at most its next transaction (20_memory R52). -/
theorem afterAtMostOne_of_hostMove {s t : State} (hs : s.hostMove = .next t) : AfterAtMostOne s t.block := by
  rcases s.hostMove_cases with ⟨-, e⟩ | ⟨op, -, -, e⟩ | ⟨op, off, line, inside, e⟩
  all_goals rw [e] at hs; cases hs
  · exact .inl rfl
  · exact .inr ⟨op, off, line, lt_of_blockOffset inside, eq_of_blockOffset inside, rfl⟩

/-- A prompt move that goes on is a host move and then an engine move (20_memory R54). -/
theorem hostMove_of_promptMove {s t : State} (hs : s.promptMove = .next t) :
    ∃ s', s.hostMove = .next s' ∧ s'.engineMove = .next t := by
  obtain ⟨continues, faults⟩ := promptMoveIsHostMoveThenEngineMove s
  rcases s.hostMove_cases with ⟨-, e⟩ | ⟨op, -, -, e⟩ | ⟨op, off, -, -, e⟩
  · exact ⟨_, e, continues _ e ▸ hs⟩
  · cases (faults _ e).symm.trans hs
  · exact ⟨_, e, continues _ e ▸ hs⟩

/-- `c` is `b`, or what the engine step of the command pending in `b` makes of it (70_reset R140). -/
def AfterAtMostTheEngine (b c : Block) : Prop :=
  c = b ∨ ∃ i, b.seq = .busy i ∧ c = b.runCommand i (performOf i)

theorem afterAtMostTheEngine_of_engineMove {s t : State} (hs : s.engineMove = .next t) :
    AfterAtMostTheEngine s.block t.block := by
  rcases engineMove_block hs with ⟨-, e⟩ | performed
  · exact .inl e
  · exact .inr performed

/-- A move that is no reset is at most one transaction and then at most one engine step (70_reset R138, R141). -/
theorem move_through {s t : State} {m : Move} (hs : s.move m = .next t) (noReset : m ≠ .reset) :
    ∃ b, AfterAtMostOne s b ∧ AfterAtMostTheEngine b t.block := by
  cases m with
  | reset => exact absurd rfl noReset
  | host => exact ⟨t.block, afterAtMostOne_of_hostMove hs, .inl rfl⟩
  | engine => exact ⟨s.block, .inl rfl, afterAtMostTheEngine_of_engineMove hs⟩
  | prompt =>
    obtain ⟨s', host, engine⟩ := hostMove_of_promptMove hs
    exact ⟨s'.block, afterAtMostOne_of_hostMove host, afterAtMostTheEngine_of_engineMove engine⟩

section
variable {s : State} {b : Block} (after : AfterAtMostOne s b)
include after

/-- No transaction redraws the arrays (70_reset R138). -/
theorem epoch_of_afterAtMostOne : b.epoch = s.block.epoch := by
  rcases after with rfl | ⟨op, off, -, -, -, rfl⟩
  · rfl
  · exact (s.block.keepsHidden_transact off _).epoch

/-- No transaction drops a pending command (20_memory R51). -/
theorem seq_of_afterAtMostOne {i : Instr} (busy : s.block.seq = .busy i) : b.seq = .busy i := by
  rcases after with rfl | ⟨op, off, -, -, -, rfl⟩
  · exact busy
  · exact Block.transact_seq_of_busy busy off _

end

theorem epoch_of_afterAtMostTheEngine {b c : Block} (after : AfterAtMostTheEngine b c) : c.epoch = b.epoch := by
  rcases after with rfl | ⟨i, -, rfl⟩
  · rfl
  · exact (b.runCommand_platform i).2

/-- Every step keeps the configuration, a reset included (00_scope R6, log 15). -/
theorem step_toParameters {s t : State} (hs : step s = .next t) : t.block.toParameters = s.block.toParameters :=
  step_keeps (P := fun b => b.toParameters = s.block.toParameters)
    (fun b off t kept => (b.transact_toParameters off t).trans kept)
    (fun b i _ kept => (b.runCommand_platform i).1.trans kept)
    (fun _ kept => (Block.reset_toParameters _ _).trans kept) rfl hs

/-- Settles O51: the transaction leaves the command pending, so the engine step that may follow is that command's. -/
theorem onlyResetDiscardsOrRedraws : Obligations.OnlyResetDiscardsOrRedraws := by
  intro s t hs
  refine ⟨step_toParameters hs, fun noReset => ?_⟩
  obtain ⟨b, transacted, performed⟩ := move_through (s := { s with schedule := s.nextMove.2 }) hs noReset
  refine ⟨(epoch_of_afterAtMostTheEngine performed).trans (epoch_of_afterAtMostOne transacted), fun i busy => ?_⟩
  have pending := seq_of_afterAtMostOne transacted busy
  refine ⟨b, transacted, pending, performed.imp id ?_⟩
  rintro ⟨j, pending', block⟩
  cases pending'.symm.trans pending
  refine ⟨_, exec_eq i _, block, ?_⟩
  rw [block, Block.runCommand_of_busy pending]
  exact ⟨Block.complete_seq _, Block.complete_done _⟩

end Sys2Proof.Machine
end
